-- ==== Sys2Proof/Word.lean ====
section
/-! DEFINITION. The word types of the part: bytes, register words, fabric identities. -/

namespace Sys2Proof

/-- One byte (R4: byte 0 of a quantity holds bits [7:0]). -/
abbrev Byte := BitVec 8
abbrev W16 := BitVec 16
/-- A register of the window (R8). -/
abbrev W32 := BitVec 32
/-- A Ledger record, an event status, a general register of a sequencer. -/
abbrev W64 := BitVec 64
/-- A fabric identity: side [16], package [15:2], die [1:0] (R193). -/
abbrev FabId := BitVec 17

end Sys2Proof
end

