-- ==== Sys2Proof/Config.lean ====
section
/-! DEFINITION. What the silicon fixes and what the spec leaves open: constants without a body, of which no proof knows a value. -/

namespace Sys2Proof

/-- The die number of this instance (R7, R225, R334). -/
opaque Config.die : BitVec 2
/-- The serial number, set at manufacture (R334). -/
opaque Config.serial : BitVec 64
/-- The Keeper's program counter that FWC_CTRL reads (R327): a halted Keeper's PC is firmware, one value per read. -/
opaque Config.keeperPc : Nat → BitVec 32
/-- Whether the FWC SRAM passes its test in step 2 of the start-up (R320), one outcome per test. -/
opaque Config.fwcSramGood : Nat → Bool
/-- The smoothing divisors that a receiver holds for a stream and epoch, by channel, as FP32 codes (R113): where a receiver that
is no drain port takes them from the manual does not say. -/
opaque Config.smoothDiv : Nat → BitVec 16 → Nat → BitVec 32
/-- The SCALE code of a unit 2^e that no code names (R77, R173). -/
opaque Config.unitScale : Int → BitVec 16
/-- The sign of a sum of NaNs whose signs differ (R71 gives the sign of "that NaN" and not of which). -/
opaque Config.nanSumSign : List Bool → Bool
/-- An element of a unit that holds half of a 256-element block and comes without the other half, rotated back (R111, R113): by
its record, its decoded elements as FP32 codes, and its place. -/
opaque Config.halfBlock : BitVec 64 → List (BitVec 32) → Nat → BitVec 32
/-- Whether a GETRSP lands arrive-and-start, as its responder knows it (R198): by the header it copies. No field that the responder is
sent says so. -/
opaque Config.landsAtPort : BitVec 256 → Bool
/-- One byte of a snapshot image where R276 names the entry's content and not its layout: by the entry's offset, its content as numbers,
and the byte's place in it. -/
opaque Config.imageByte : Nat → List Nat → Nat → BitVec 8
/-- The Courier epoch that the members of a group write when they bind it (R219), by the group. -/
opaque Config.bindEpoch : BitVec 16 → BitVec 16
/-- The trace point of the Guestbook entry that a failed Larder BIST leaves (R320): the catalogue of R312 names none. -/
opaque Config.bistFailTp : BitVec 16
/-- The level of that entry, not named either. -/
opaque Config.bistFailLevel : BitVec 3

end Sys2Proof
end

