-- ==== Sys2Proof/Machine/Bits.lean ====
section
/-! DEFINITION. Bit fields, byte order (R4), saturating counters (R332), serial comparison (R80) and the
CRC-32C check word (R57, R297, R322). -/

namespace Sys2Proof.Machine

/-- The field of `len` bits whose lowest bit is `lo`, as a number. -/
def fld {w : Nat} (v : BitVec w) (lo len : Nat) : Nat := (v.toNat >>> lo) % 2 ^ len

/-- Bit `i` of `v`. -/
def bitOf {w : Nat} (v : BitVec w) (i : Nat) : Bool := v.toNat.testBit i

/-- `v` with bit `i` set. -/
def setBitAt {w : Nat} (v : BitVec w) (i : Nat) : BitVec w := v ||| BitVec.ofNat w (2 ^ i)

/-- `v` with the bits of `m` cleared: what a W1C write does (R10). -/
def clearBits {w : Nat} (v m : BitVec w) : BitVec w := v &&& ~~~m

/-- A number of one bit. -/
def b2n (b : Bool) : Nat := if b then 1 else 0

/-- `v` with the field of `len` bits at `lo` replaced by `x` modulo its width (R235). -/
def setFld {w : Nat} (v : BitVec w) (lo len x : Nat) : BitVec w :=
  BitVec.ofNat w (v.toNat - (fld v lo len) * 2 ^ lo + (x % 2 ^ len) * 2 ^ lo)

/-- The `n` bytes of a number, byte 0 first (R4). -/
def toBytes : Nat → Nat → List Byte
  | 0, _ => []
  | n + 1, v => BitVec.ofNat 8 v :: toBytes n (v / 256)

/-- The number that bytes hold, byte 0 first (R4). -/
def ofBytes : List Byte → Nat
  | [] => 0
  | b :: bs => b.toNat + 256 * ofBytes bs

/-- `n` bytes of a list from position `at0`, short lists read as zeros. -/
def slice (bs : List Byte) (at0 n : Nat) : List Byte :=
  let t := (bs.drop at0).take n
  t ++ List.replicate (n - t.length) 0

/-- An RC counter of 32 bits counts `n` more and saturates at all ones (R332). -/
def satAdd (c : W32) (n : Nat) : W32 := BitVec.ofNat 32 (min (c.toNat + n) (2 ^ 32 - 1))

/-- A counter field of `w` bits that saturates. -/
def satN (w c n : Nat) : Nat := min (c + n) (2 ^ w - 1)

/-- Epoch `a` is newer than epoch `b` in serial arithmetic (R80). -/
def newer16 (a b : W16) : Bool :=
  let d := (a - b).toNat
  decide (1 ≤ d) && decide (d ≤ 32767)

/-- One bit step of the reflected CRC-32C polynomial. -/
def crcBit (c : Nat) : Nat := if c % 2 = 1 then (c / 2) ^^^ 0x82F63B78 else c / 2

/-- One byte into a CRC-32C. -/
def crcByte (c : Nat) (b : Byte) : Nat :=
  crcBit (crcBit (crcBit (crcBit (crcBit (crcBit (crcBit (crcBit (c ^^^ b.toNat))))))))

/-- CRC-32C of a list of bytes. PRESUMED: the published parameters (reflected polynomial 0x82F63B78, start and final
inversion all ones); the manual names the code and does not write it out (log entry 6). -/
def crc32c (bs : List Byte) : W32 :=
  BitVec.ofNat 32 ((bs.foldl crcByte 0xFFFFFFFF) ^^^ 0xFFFFFFFF)

end Sys2Proof.Machine
end

