-- ==== Sys2Proof/Machine/Numbers.lean ====
section
/-! DEFINITION. Exact rational arithmetic and values with specials: the "exact real arithmetic" of R98 with the signs of
zeros (R98), the NaN signs of R71 and the directed and nearest roundings of R105. -/

namespace Sys2Proof.Machine

/-- A rational number num / den, kept in lowest terms by `Q.norm`; den is never 0 in a value these operations make. -/
structure Q where
  num : Int
  den : Nat
  deriving DecidableEq, Repr

def Q.norm (n : Int) (d : Nat) : Q :=
  let g := Nat.gcd n.natAbs d
  if g ≤ 1 then ⟨n, d⟩ else ⟨n / (g : Int), d / g⟩

def Q.ofInt (n : Int) : Q := ⟨n, 1⟩
def Q.add (a b : Q) : Q := Q.norm (a.num * (b.den : Int) + b.num * (a.den : Int)) (a.den * b.den)
def Q.neg (a : Q) : Q := ⟨-a.num, a.den⟩
def Q.sub (a b : Q) : Q := Q.add a (Q.neg b)
def Q.mul (a b : Q) : Q := Q.norm (a.num * b.num) (a.den * b.den)
/-- Quotient; a zero divisor is never asked for (scales and valid divisors are positive, R77, R115). -/
def Q.div (a b : Q) : Q :=
  if b.num < 0 then Q.norm (-(a.num * (b.den : Int))) (a.den * b.num.natAbs)
  else Q.norm (a.num * (b.den : Int)) (a.den * b.num.natAbs)
def Q.lt (a b : Q) : Bool := decide (a.num * (b.den : Int) < b.num * (a.den : Int))
def Q.le (a b : Q) : Bool := decide (a.num * (b.den : Int) ≤ b.num * (a.den : Int))
def Q.eq (a b : Q) : Bool := decide (a.num * (b.den : Int) = b.num * (a.den : Int))
def Q.isZero (a : Q) : Bool := decide (a.num = 0)
def Q.abs (a : Q) : Q := ⟨a.num.natAbs, a.den⟩
def Q.maxQ (a b : Q) : Q := if Q.lt a b then b else a
def Q.minQ (a b : Q) : Q := if Q.lt b a then b else a
/-- 2 to an integer power. -/
def Q.pow2 (e : Int) : Q := if e < 0 then ⟨1, 2 ^ e.natAbs⟩ else ⟨(2 ^ e.natAbs : Nat), 1⟩
/-- Largest integer not above (R107 step 1). -/
def Q.floor (a : Q) : Int := Int.fdiv a.num (a.den : Int)
/-- Smallest integer not below. -/
def Q.ceil (a : Q) : Int := - Int.fdiv (-a.num) (a.den : Int)
/-- To nearest, ties to even (R105). -/
def Q.rne (a : Q) : Int :=
  let f := Q.floor a
  let r2 := 2 * (a.num - f * (a.den : Int))
  if r2 < (a.den : Int) then f
  else if r2 = (a.den : Int) then (if f % 2 = 0 then f else f + 1)
  else f + 1
/-- floor(log2 |a|) of a number that is not 0 (R89 step 2). -/
def Q.log2 (a : Q) : Int :=
  let n := a.num.natAbs
  let e : Int := (Nat.log2 n : Int) - (Nat.log2 a.den : Int)
  if Q.le (Q.pow2 e) (Q.abs a) then e else e - 1

/-- An exact value: a finite number with the sign its zero bears, an infinity or a NaN with their signs. -/
inductive Val where
  | fin (q : Q) (zneg : Bool)
  | inf (neg : Bool)
  | nan (neg : Bool)
  deriving DecidableEq, Repr

def Val.zero : Val := .fin ⟨0, 1⟩ false
/-- The sign of a value; a zero keeps its own. -/
def Val.sign : Val → Bool
  | .fin q z => if q.num = 0 then z else decide (q.num < 0)
  | .inf n => n
  | .nan n => n
def Val.isFin : Val → Bool
  | .fin _ _ => true
  | _ => false
def Val.fin? : Val → Option Q
  | .fin q _ => some q
  | _ => none
/-- Negation (stage 3, R97, R98): of zeros, infinities and NaNs too. -/
def Val.neg : Val → Val
  | .fin q z => .fin (Q.neg q) (!z)
  | .inf n => .inf (!n)
  | .nan n => .nan n
/-- The sign of a NaN term. -/
def Val.nanSign : Val → Option Bool
  | .nan n => some n
  | _ => none
/-- One exact sum of several terms (R98): a cancellation is +0, all zeros of sign 1 give −0; ∞ + (−∞) is a positive NaN and NaN terms
keep their sign (R71), which is free where theirs differ (log entry 7). -/
def Val.sum (vs : List Val) : Val :=
  match vs.filterMap Val.nanSign with
  | n :: ns => .nan (if ns.all (· == n) then n else Config.nanSumSign (n :: ns))
  | [] =>
    let pos := vs.any (fun v => v = .inf false)
    let neg := vs.any (fun v => v = .inf true)
    if pos && neg then .nan false
    else if pos then .inf false
    else if neg then .inf true
    else
      let q := vs.foldl (fun a v => match v with | .fin x _ => Q.add a x | _ => a) (⟨0, 1⟩ : Q)
      .fin q (vs.all (fun v => match v with | .fin x z => decide (x.num = 0) && z | _ => false))
/-- A value times a positive finite factor. -/
def Val.scale (v : Val) (f : Q) : Val :=
  match v with
  | .fin q z => .fin (Q.mul q f) z
  | w => w

end Sys2Proof.Machine
end

