-- ==== Sys2Proof/Machine/Formats.lean ====
section
/-! DEFINITION. Element formats (R69 to R75), their decoding (R70, R84, R104) and encoding (R84, R85, R103), packing
(R75) and the Ledger record (R76). -/

namespace Sys2Proof.Machine

/-- The element formats of R69. -/
inductive Fmt where
  | fp32 | fp16 | bf16
  | e4m3 | e5m2 | e3m2 | e2m3 | e2m1
  | int8 | uint8 | int4
  | mxe4m3 | mxe5m2 | mxe3m2 | mxe2m3 | mxe2m1 | mxint8
  | t16 | x48
  deriving DecidableEq, Repr

/-- Format codes (R69); every other code is rejected by the unit that decodes it. -/
def Fmt.ofCode (c : Nat) : Option Fmt :=
  match c with
  | 0x00 => some .fp32 | 0x01 => some .fp16 | 0x02 => some .bf16
  | 0x03 => some .e4m3 | 0x04 => some .e5m2 | 0x05 => some .e3m2 | 0x06 => some .e2m3 | 0x07 => some .e2m1
  | 0x08 => some .int8 | 0x09 => some .uint8 | 0x0A => some .int4
  | 0x10 => some .mxe4m3 | 0x11 => some .mxe5m2 | 0x12 => some .mxe3m2 | 0x13 => some .mxe2m3
  | 0x14 => some .mxe2m1 | 0x15 => some .mxint8
  | 0x1C => some .t16 | 0x1D => some .x48
  | _ => none

/-- Bits per element (R69). -/
def Fmt.width : Fmt → Nat
  | .fp32 => 32 | .fp16 => 16 | .bf16 => 16
  | .e4m3 => 8 | .e5m2 => 8 | .e3m2 => 6 | .e2m3 => 6 | .e2m1 => 4
  | .int8 => 8 | .uint8 => 8 | .int4 => 4
  | .mxe4m3 => 8 | .mxe5m2 => 8 | .mxe3m2 => 6 | .mxe2m3 => 6 | .mxe2m1 => 4 | .mxint8 => 8
  | .t16 => 16 | .x48 => 48

def Fmt.isWide : Fmt → Bool
  | .fp32 | .fp16 | .bf16 => true
  | _ => false
/-- Ledger-scaled: codes 0x03 to 0x0A (R69, R117). -/
def Fmt.isLedger : Fmt → Bool
  | .e4m3 | .e5m2 | .e3m2 | .e2m3 | .e2m1 | .int8 | .uint8 | .int4 => true
  | _ => false
def Fmt.isMx : Fmt → Bool
  | .mxe4m3 | .mxe5m2 | .mxe3m2 | .mxe2m3 | .mxe2m1 | .mxint8 => true
  | _ => false
def Fmt.isRun : Fmt → Bool
  | .t16 | .x48 => true
  | _ => false
/-- The element format of an MX format (R87). -/
def Fmt.mxElem : Fmt → Fmt
  | .mxe4m3 => .e4m3 | .mxe5m2 => .e5m2 | .mxe3m2 => .e3m2 | .mxe2m3 => .e2m3 | .mxe2m1 => .e2m1
  | f => f

/-- The layout of a floating-point format (R70). `maxMag` is the magnitude code of the largest finite value; `infMag`
the code of ∞ and `nanMag` the canonical NaN (R71), where the format has them. -/
structure FloatFmt where
  mw : Nat
  bias : Nat
  width : Nat
  maxMag : Nat
  infMag : Option Nat
  nanMag : Option Nat
  deriving DecidableEq, Repr

/-- The table of R70; integer, MX and running formats have no float layout. -/
def Fmt.float? : Fmt → Option FloatFmt
  | .fp32 => some ⟨23, 127, 32, 0x7F7FFFFF, some 0x7F800000, some 0x7FC00000⟩
  | .fp16 => some ⟨10, 15, 16, 0x7BFF, some 0x7C00, some 0x7E00⟩
  | .bf16 => some ⟨7, 127, 16, 0x7F7F, some 0x7F80, some 0x7FC0⟩
  | .e4m3 => some ⟨3, 7, 8, 0x7E, none, some 0x7F⟩
  | .e5m2 => some ⟨2, 15, 8, 0x7B, some 0x7C, some 0x7F⟩
  | .e3m2 => some ⟨2, 3, 6, 0x1F, none, none⟩
  | .e2m3 => some ⟨3, 1, 6, 0x1F, none, none⟩
  | .e2m1 => some ⟨1, 1, 4, 0x7, none, none⟩
  | _ => none

/-- The exact value of a float code (R70): every magnitude code above the largest finite one is ∞ or a NaN. -/
def decodeFloat (f : FloatFmt) (code : Nat) : Val :=
  let top := 2 ^ (f.width - 1)
  let neg := decide (top ≤ code % (2 * top))
  let mag := code % top
  if mag ≤ f.maxMag then
    let e := mag / 2 ^ f.mw
    let m := mag % 2 ^ f.mw
    let q := if e = 0 then Q.mul (Q.ofInt (m : Nat)) (Q.pow2 (1 - (f.bias : Int) - (f.mw : Int)))
      else Q.mul (Q.ofInt ((2 ^ f.mw + m : Nat))) (Q.pow2 ((e : Int) - (f.bias : Int) - (f.mw : Int)))
    .fin (if neg then Q.neg q else q) neg
  else if f.infMag = some mag then .inf neg
  else .nan neg

/-- The magnitude code of |q| rounded to nearest, ties to even, with an unbounded exponent (R103 step 2): codes rise with the
values, so a result above `maxMag` is a result beyond the format. -/
def roundMag (f : FloatFmt) (q : Q) : Nat :=
  if q.num = 0 then 0 else
    let e := Q.log2 q
    let lo : Int := 1 - (f.bias : Int)
    let eff := if e < lo then lo else e
    let m := Q.rne (Q.mul (Q.abs q) (Q.pow2 ((f.mw : Int) - eff)))
    ((eff - lo) * (2 ^ f.mw : Nat) + m).toNat

/-- The sign bit of a code. -/
def signBit (f : FloatFmt) (neg : Bool) : Nat := if neg then 2 ^ (f.width - 1) else 0

/-- IEEE rounding into a wide format: N of R84, with the canonical NaN of R71. -/
def encodeN (f : FloatFmt) (v : Val) : Nat :=
  match v with
  | .fin q _ =>
    let m := roundMag f q
    signBit f v.sign + (if f.maxMag < m then f.infMag.getD f.maxMag else m)
  | .inf n => signBit f n + f.infMag.getD f.maxMag
  | .nan n => signBit f n + f.nanMag.getD 0

/-- N into a wide format with saturation in place of ∞: the IFMT roundings of R116 and R157. The flag says that a finite
value saturated. -/
def encodeNSat (f : FloatFmt) (v : Val) : Nat × Bool :=
  match v with
  | .fin q _ =>
    let m := roundMag f q
    if f.maxMag < m then (signBit f v.sign + f.maxMag, true) else (signBit f v.sign + m, false)
  | _ => (encodeN f v, false)

def fp32Fmt : FloatFmt := ⟨23, 127, 32, 0x7F7FFFFF, some 0x7F800000, some 0x7FC00000⟩
def bf16Fmt : FloatFmt := ⟨7, 127, 16, 0x7F7F, some 0x7F80, some 0x7FC0⟩
/-- The value of a binary32 code. -/
def ofFp32 (c : W32) : Val := decodeFloat fp32Fmt c.toNat
/-- The value of a bfloat16 code. -/
def ofBf16 (c : W16) : Val := decodeFloat bf16Fmt c.toNat

/-! ### Scales (R77, R101, R102) -/

/-- The value of an E8M7 scale: bfloat16 layout with bit 15 = 0. -/
def scaleQ (s : W16) : Q := (ofBf16 s).fin?.getD ⟨1, 1⟩

/-- A valid SCALE (R77). -/
def scaleValid (s : W16) : Bool := decide (0x0080 ≤ s.toNat) && decide (s.toNat ≤ 0x7F7F)

/-- Smallest E8M7 value not less than v, or smallest power of two where POW2 = 1, clamped to [0x0080, 0x7F7F]
(R101 steps 3 and 4). -/
def scaleCeil (pow2 : Bool) (v : Q) : W16 :=
  let e := Q.log2 v
  let code : Int :=
    if pow2 then
      let e' := if Q.lt (Q.pow2 e) v then e + 1 else e
      (e' + 127) * 128
    else
      let eff := if e < -126 then -126 else e
      (eff + 126) * 128 + Q.ceil (Q.mul v (Q.pow2 (7 - eff)))
  BitVec.ofNat 16 (min (max code.toNat 0x0080) 0x7F7F)

/-- The largest code magnitude of each Ledger-scaled target under symmetric mapping (R100). -/
def Fmt.qmax : Fmt → Q
  | .int8 => ⟨127, 1⟩ | .uint8 => ⟨127, 1⟩ | .int4 => ⟨7, 1⟩
  | .e4m3 => ⟨448, 1⟩ | .e5m2 => ⟨57344, 1⟩ | .e3m2 => ⟨28, 1⟩ | .e2m3 => ⟨15, 2⟩ | .e2m1 => ⟨6, 1⟩
  | _ => ⟨1, 1⟩

/-- The symmetric scale of a statistic amax (R101); `none` stands for a row with no finite element. -/
def symScale (f : Fmt) (pow2 : Bool) (amax : Option Q) : W16 :=
  match amax with
  | none => 0x3F80#16
  | some a => if a.num = 0 then 0x3F80#16 else scaleCeil pow2 (Q.div a f.qmax)

/-- The ends of the codes under asymmetric mapping (R102 step 2). -/
def asymLo : Fmt → Int
  | .int8 => -128
  | _ => 0

/-- The asymmetric scale and the Ledger ZP byte of statistics min and max (R102); an absent bound is taken as 0. -/
def asymScale (f : Fmt) (pow2 : Bool) (mn mx : Option Q) : W16 × Byte :=
  let lo := Q.minQ (mn.getD ⟨0, 1⟩) ⟨0, 1⟩
  let hi := Q.maxQ (mx.getD ⟨0, 1⟩) ⟨0, 1⟩
  let qmin := asymLo f
  let bias : Int := if f = .uint8 then 128 else 0
  if Q.eq lo hi then (0x3F80#16, BitVec.ofInt 8 (qmin - bias))
  else
    let s := scaleCeil pow2 (Q.div (Q.sub hi lo) ⟨255, 1⟩)
    let z := Q.rne (Q.sub (Q.ofInt qmin) (Q.div lo (scaleQ s)))
    let z := min (max z qmin) (qmin + 255)
    (s, BitVec.ofInt 8 (z - bias))

/-- The effective zero point of a ZP byte (R74). -/
def effZ (f : Fmt) (zp : Byte) : Int := if f = .uint8 then zp.toInt + 128 else zp.toInt

/-! ### One element -/

/-- What encoding one element gives: the code, whether it saturated (CLIPPED), whether it poisons its row. -/
structure Enc where
  code : Nat
  clip : Bool
  poison : Bool
  deriving DecidableEq, Repr

/-- Encode one stage-4 value into a Ledger-scaled target (R85, R103). `asym` says which codes are in use (R100, R102). -/
def encodeElem (f : Fmt) (asym : Bool) (s : W16) (zp : Byte) (v : Val) : Enc :=
  match f.float? with
  | some ff =>
    match v with
    | .fin q _ =>
      let m := roundMag ff (Q.div q (scaleQ s))
      if ff.maxMag < m then ⟨signBit ff v.sign + ff.maxMag, true, false⟩
      else ⟨signBit ff v.sign + m, false, false⟩
    | .inf n =>
      match ff.infMag, ff.nanMag with
      | some i, _ => ⟨signBit ff n + i, false, false⟩
      | none, some c => ⟨signBit ff n + c, false, true⟩
      | none, none => ⟨0, false, true⟩
    | .nan n =>
      match ff.nanMag with
      | some c => ⟨signBit ff n + c, false, false⟩
      | none => ⟨0, false, true⟩
  | none =>
    let w := f.width
    let z := effZ f zp
    let lo : Int := if asym then asymLo f else if f = .uint8 then 1 else if f = .int4 then -7 else -127
    let hi : Int := if asym then asymLo f + 255 else if f = .uint8 then 255 else if f = .int4 then 7 else 127
    let put (c : Int) : Nat := (BitVec.ofInt w c).toNat
    match v with
    | .fin q _ =>
      let c := Q.rne (Q.div q (scaleQ s)) + z
      if c < lo then ⟨put lo, true, false⟩ else if hi < c then ⟨put hi, true, false⟩ else ⟨put c, false, false⟩
    | _ => ⟨put z, false, true⟩

/-- Decode one code of a Ledger-scaled or wide format under a record's scale and zero point (R73, R84 D, R104). A magnitude
above the binary32 largest finite value becomes ±∞ (R84 D). -/
def decodeElem (f : Fmt) (s : W16) (zp : Byte) (code : Nat) : Val :=
  let clampD (v : Val) : Val :=
    match v with
    | .fin q _ => if Q.lt ⟨(2 ^ 24 - 1) * 2 ^ 104, 1⟩ (Q.abs q) then .inf v.sign else v
    | w => w
  if f.isWide then
    match f.float? with
    | some ff => decodeFloat ff code
    | none => Val.zero
  else match f.float? with
    | some ff => clampD (Val.scale (decodeFloat ff code) (scaleQ s))
    | none =>
      let c : Int := if f = .uint8 then (code : Int) else (BitVec.ofNat f.width code).toInt
      clampD (.fin (Q.mul (Q.ofInt (c - effZ f zp)) (scaleQ s)) false)

/-! ### Packing (R75) -/

/-- Codes of one width in their places, as bytes: every width of R75 is one little-endian bit stream. -/
def packCodes (w : Nat) (codes : List Nat) : List Byte :=
  toBytes (codes.length * w / 8) (codes.foldr (fun c acc => c % 2 ^ w + acc * 2 ^ w) 0)

def unpackN : Nat → Nat → Nat → List Nat
  | 0, _, _ => []
  | n + 1, w, v => v % 2 ^ w :: unpackN n w (v / 2 ^ w)

/-- `n` codes of width w out of bytes (R75). -/
def unpackCodes (w n : Nat) (bs : List Byte) : List Nat := unpackN n w (ofBytes bs)

/-! ### The Ledger record (R76) -/

structure Rec where
  scale : W16
  zp : Byte
  poison : Bool
  clipped : Bool
  misfit : Bool
  rotated : Bool
  smoothed : Bool
  absent : Bool
  exact : Bool
  wide : Bool
  count : W16
  epoch : W16
  deriving DecidableEq, Repr

/-- The 64 bits of a record (R76). -/
def Rec.word (r : Rec) : W64 :=
  BitVec.ofNat 64 (r.scale.toNat + r.zp.toNat * 2 ^ 16 + b2n r.poison * 2 ^ 24 + b2n r.clipped * 2 ^ 25
    + b2n r.misfit * 2 ^ 26 + b2n r.rotated * 2 ^ 27 + b2n r.smoothed * 2 ^ 28 + b2n r.absent * 2 ^ 29
    + b2n r.exact * 2 ^ 30 + b2n r.wide * 2 ^ 31 + r.count.toNat * 2 ^ 32 + r.epoch.toNat * 2 ^ 48)

/-- A record read from its 64 bits (R76). -/
def Rec.ofWord (w : W64) : Rec :=
  { scale := BitVec.ofNat 16 (fld w 0 16), zp := BitVec.ofNat 8 (fld w 16 8), poison := bitOf w 24,
    clipped := bitOf w 25, misfit := bitOf w 26, rotated := bitOf w 27, smoothed := bitOf w 28,
    absent := bitOf w 29, exact := bitOf w 30, wide := bitOf w 31,
    count := BitVec.ofNat 16 (fld w 32 16), epoch := BitVec.ofNat 16 (fld w 48 16) }

/-- A record is malformed (R81). `cls` is the stream's class where it is known: weights and gradients bear no zero point. -/
def Rec.malformed (r : Rec) (f : Fmt) (cls : Option Nat) : Bool :=
  !scaleValid r.scale
  || (f.isRun && decide (r.scale.toNat % 128 ≠ 0))
  || (r.wide && (decide (f ≠ .bf16) || r.exact || decide (r.zp ≠ 0#8)))
  || (decide (r.zp ≠ 0#8) && (!(decide (f = .int8) || decide (f = .uint8)) || cls == some 1 || cls == some 2))
  || (r.exact && decide (f ≠ .x48)) || (!r.exact && decide (f = .x48))
  || (decide (r.count = 0#16) && !r.absent)

/-- A Ledger unit in transit: its record and its element bytes (R82). -/
structure LUnit where
  led : Rec
  els : List Byte
  deriving DecidableEq, Repr

/-- A unit as it stands in a Larder buffer or a flit body: the record directly before the elements (R82). -/
def LUnit.bytes (u : LUnit) : List Byte := toBytes 8 u.led.word.toNat ++ u.els

end Sys2Proof.Machine
end

