-- ==== Sys2Proof/Machine/Streams.lean ====
section
/-! DEFINITION. A tensor stream's entry (R95, R118, R345) and its six register words. -/

namespace Sys2Proof.Machine

/-- One stream entry: the arithmetic fields of R95 and the scale fields of R118 (WIDE, ENV_CLEAR and WIDE_CLR are kept with
the stream's Envelope). -/
structure StreamEntry where
  map : Bool
  pow2 : Bool
  rotN : BitVec 3
  signEn : Bool
  smoothEn : Bool
  cls : BitVec 2
  mode : BitVec 2
  lodgeFb : BitVec 2
  envK : BitVec 4
  headroom : BitVec 4
  signBase : BitVec 14
  rowT : BitVec 12
  misfitTh : W16
  calBase : W16
  epoch : W16
  key : W64
  deriving DecidableEq, Repr

/-- Every entry after reset (R118, R345): MODE 2, LODGE_FB 2, ENV_K 7, HEADROOM 2, MISFIT_TH 16. -/
def StreamEntry.reset : StreamEntry :=
  { map := false, pow2 := false, rotN := 0, signEn := false, smoothEn := false, cls := 0, mode := 2, lodgeFb := 2,
    envK := 7, headroom := 2, signBase := 0, rowT := 0, misfitTh := 16, calBase := 0, epoch := 0, key := 0 }

/-- Words 0 to 5 of the staging register (R345); `wide` is the live WIDE latch shown in word 3. -/
def StreamEntry.word (e : StreamEntry) (wide : Bool) (i : Nat) : W32 :=
  match i with
  | 0 => BitVec.ofNat 32 (b2n e.map + b2n e.pow2 * 2 + e.rotN.toNat * 4 + b2n e.signEn * 32 + b2n e.smoothEn * 64
      + e.cls.toNat * 2 ^ 7 + e.mode.toNat * 2 ^ 9 + e.lodgeFb.toNat * 2 ^ 11 + e.envK.toNat * 2 ^ 13
      + e.headroom.toNat * 2 ^ 17)
  | 1 => BitVec.ofNat 32 (e.signBase.toNat + e.rowT.toNat * 2 ^ 16)
  | 2 => BitVec.ofNat 32 (e.misfitTh.toNat + e.calBase.toNat * 2 ^ 16)
  | 3 => BitVec.ofNat 32 (e.epoch.toNat + b2n wide * 2 ^ 18)
  | 4 => BitVec.ofNat 32 (fld e.key 0 32)
  | _ => BitVec.ofNat 32 (fld e.key 32 32)

/-- The entry with one staging word replaced by a write; reserved and read-only bits are ignored (R5, R345). -/
def StreamEntry.setWord (e : StreamEntry) (i : Nat) (w : W32) : StreamEntry :=
  match i with
  | 0 =>
    { e with
      map := bitOf w 0, pow2 := bitOf w 1, rotN := BitVec.ofNat 3 (fld w 2 3), signEn := bitOf w 5,
      smoothEn := bitOf w 6, cls := BitVec.ofNat 2 (fld w 7 2), mode := BitVec.ofNat 2 (fld w 9 2),
      lodgeFb := BitVec.ofNat 2 (fld w 11 2), envK := BitVec.ofNat 4 (fld w 13 4), headroom := BitVec.ofNat 4 (fld w 17 4) }
  | 1 => { e with signBase := BitVec.ofNat 14 (fld w 0 14), rowT := BitVec.ofNat 12 (fld w 16 12) }
  | 2 => { e with misfitTh := BitVec.ofNat 16 (fld w 0 16), calBase := BitVec.ofNat 16 (fld w 16 16) }
  | 3 => { e with epoch := BitVec.ofNat 16 (fld w 0 16) }
  | 4 => { e with key := BitVec.ofNat 64 (w.toNat + fld e.key 32 32 * 2 ^ 32) }
  | _ => { e with key := BitVec.ofNat 64 (fld e.key 0 32 + w.toNat * 2 ^ 32) }

/-- Reserved values that make a commit ignored (R346): ROT_N 6 and 7, LODGE_FB 1. -/
def StreamEntry.reservedValue (e : StreamEntry) : Bool :=
  decide (6 ≤ e.rotN.toNat) || decide (e.lodgeFb = 1#2)

/-- L, the number of tiles of one row (R118): ROW_T + 1. -/
def StreamEntry.tiles (e : StreamEntry) : Nat := e.rowT.toNat + 1

/-- Walsh–Hadamard block size of ROT_N (R95, R110); 0 where it does not rotate. -/
def StreamEntry.rotBlock (e : StreamEntry) : Nat :=
  match e.rotN.toNat with
  | 1 => 16 | 2 => 32 | 3 => 64 | 4 => 128 | 5 => 256
  | _ => 0

end Sys2Proof.Machine
end

