-- ==== Sys2Proof/Machine/Wire.lean ====
section
/-! DEFINITION. What commands carry as operands: messages and chunks as they arrive whole, CONTROL bodies (R273), group-table
images (R270), mirrored changes (R18), power inputs (R62), clock domains (R313), Larder read errors (R284). -/

namespace Sys2Proof.Machine

/-- What a Larder read met (R284): nothing, a corrected bit, or an uncorrectable error at a line, whose bank is fixed (R27). -/
inductive LarderErr where
  | clean
  | corrected
  | uncorrectable (line : BitVec 20)
  deriving DecidableEq, Repr

/-- The read met an uncorrectable error. -/
def LarderErr.isUe : LarderErr → Bool
  | .uncorrectable _ => true
  | _ => false

/-- The error lies in a line that the Larder has (R27). -/
def LarderErr.inLarder : LarderErr → Bool
  | .uncorrectable line => decide (line.toNat < 786432)
  | _ => true

/-- Which part of a chunk an uncorrectable Larder error struck (R284). -/
inductive ChunkErr where
  | clean
  | header
  | record (u : Nat)
  | elements (u : Nat)
  deriving DecidableEq, Repr

/-- A Waystation whose oldest deposit enters its context: `err` names what an uncorrectable Larder error `lerr` struck of it (R284). -/
structure DepositIn where
  ws : Fin 8
  err : ChunkErr
  lerr : LarderErr
  deriving DecidableEq, Repr

/-- The work area that LOAD_IMAGE names (R294): its die offset, and its length in MiB. -/
structure WorkArea where
  off : W64
  len : W32
  deriving DecidableEq, Repr

/-- The verdict of a message that reaches the Gatehouse: `err` names what an uncorrectable Larder error `lerr` struck of the retention copy that a
RESEND is built from (R284). -/
structure VerdictIn where
  msgid : W16
  err : ChunkErr
  lerr : LarderErr
  deriving DecidableEq, Repr

/-- A message that has arrived whole (R199): its lane group, identities and number, its 32-byte header (R200) and its body. -/
structure RxMsg where
  lg : Fin 8
  src : FabId
  dst : FabId
  msgid : W16
  hdr : BitVec 256
  body : List Byte
  deriving DecidableEq, Repr

/-- A TETHER message that has arrived whole: one chunk with its 16-byte header (R168, R169). -/
structure ChunkMsg where
  lg : Fin 8
  src : FabId
  dst : FabId
  msgid : W16
  hdr : BitVec 128
  body : List Byte
  deriving DecidableEq, Repr

/-- The common fields of a CONTROL body (R273) and the identity that sent it. -/
structure Ctrl where
  src : FabId
  group : W16
  jseq : W32
  seq : W16
  chunk : W32
  rank : W16
  deriving DecidableEq, Repr

/-- One member entry of a group table (R270). -/
structure Member where
  ident : FabId
  w : W16
  rack : BitVec 12
  dead : Bool
  deriving DecidableEq, Repr

/-- A group-table image (R270): members in flattened order (R165). -/
structure GroupImage where
  group : W16
  hMinus1 : BitVec 12
  /-- FLOOR (R3, R270): 58,983, about 0.9, where the runtime sets none. -/
  floor : W16 := 58983
  members : List Member
  spares : List FabId
  deriving DecidableEq, Repr

/-- One journal entry (R271). -/
structure JEntry where
  jseq : W32
  kind : Byte
  done : Bool
  step : W32
  rank : W16
  chunk : W32
  data : BitVec 112
  deriving DecidableEq, Repr

/-- A sequencer's section of an image (R227, R276): state, PC, registers, loop counters, return stack, event table, Spool LEN and source,
and the word-store error flag. -/
structure SeqImage where
  st : BitVec 3
  wstore : Bool
  pc : BitVec 15
  regs : List (Nat × W64)
  lcs : List (Nat × BitVec 24)
  stack : List (BitVec 15)
  events : List (Nat × Byte × W64)
  len : W16
  src : W64
  deriving DecidableEq, Repr

/-- A change the twin mirrors (R18); the layout of mirror payloads is not given, so a word bears the change it completes. -/
inductive MirrorItem where
  | nothing
  | context (ctx : Fin 64) (block : BitVec 768)
  | contextGone (ctx : Fin 64)
  | chunkReceived (ctx : Fin 64) (chunk phase : Nat)
  | chunkForwarded (ctx : Fin 64) (chunk phase : Nat)
  | chunkRestarted (ctx : Fin 64) (chunk : Nat)
  | chunkFinished (ctx : Fin 64) (chunk : Nat)
  | ownEpoch (e : W16)
  | roleEntry (id : FabId) (e : W16)
  | streamEntry (n : Fin 4096) (e : StreamEntry)
  | envelope (n : Fin 4096) (ring : List (W16 × W16)) (acc : Option (W16 × W16))
  | managed (img : GroupImage) (dropped : List Nat)
  | membership (img : GroupImage) (mgr : FabId)
  | membershipGone (group : W16)
  | lastJseq (group : W16) (jseq : W32)
  | journal (group : W16) (e : JEntry)
  | unacked (msgid : W16) (xfer : Byte) (dst : FabId)
  | acked (msgid : W16)
  | transfer (n : Byte) (block : BitVec 512) (done : Nat)
  | transferGone (n : Byte)
  | creditCounters (floors ceils owners occ : List Nat)
  | fabricCredits (lg : Fin 8) (credits : List Nat)
  | sequencerState (q : Fin 9) (x : SeqImage)
  | snapshotPart (step : W32) (set : Bool) (it : MirrorItem)
  | resyncPart
  | journalAccepted (group : W16) (jseq : W32)
  deriving DecidableEq, Repr

/-- An entry of the mirror store (R18, R285). -/
inductive MirrorEntry where
  | context (ctx : Fin 64)
  | ownEpoch
  | role (id : FabId)
  | stream (n : Fin 4096)
  | envelope (n : Fin 4096)
  | managed (group : W16)
  | journal (group : W16)
  | membership (group : W16)
  | unacked (msgid : W16)
  | transfer (n : Byte)
  | credits
  | fabric (lg : Fin 8)
  | sequencer (q : Fin 9)
  | snapshot
  deriving DecidableEq, Repr

/-- The entry that a change writes anew. -/
def MirrorItem.entry : MirrorItem → Option MirrorEntry
  | .context c _ => some (.context c)
  | .contextGone c => some (.context c)
  | .ownEpoch _ => some .ownEpoch
  | .roleEntry i _ => some (.role i)
  | .streamEntry n _ => some (.stream n)
  | .envelope n _ _ => some (.envelope n)
  | .managed g _ => some (.managed g.group)
  | .journal g _ => some (.journal g)
  | .membership g _ => some (.membership g.group)
  | .membershipGone g => some (.membership g)
  | .unacked i _ _ => some (.unacked i)
  | .acked i => some (.unacked i)
  | .transfer n _ _ => some (.transfer n)
  | .transferGone n => some (.transfer n)
  | .creditCounters _ _ _ _ => some .credits
  | .fabricCredits g _ => some (.fabric g)
  | .sequencerState q _ => some (.sequencer q)
  | .snapshotPart _ _ _ => some .snapshot
  | _ => none

/-- A mirrored change as a word brings it, and the entry of the mirror store that meets an uncorrectable error with it (R285). -/
structure MirrorIn where
  item : MirrorItem
  ue : Option MirrorEntry
  deriving DecidableEq, Repr

/-- Levels of the power and thermal inputs (R62). -/
structure PwrIn where
  trip : Bool
  emerg : Bool
  warn : Bool
  limit : BitVec 3
  deriving DecidableEq, Repr

/-- The clock domains that gate (R313); AON, the Courier while enabled and the twin link never do. -/
inductive Dom where
  | fwc
  | quad (q : Fin 16)
  | ws (w : Fin 8)
  | gh
  | lane (g : Fin 8)
  | larder (h : Fin 2)
  | ssu
  | courier
  deriving DecidableEq, Repr

/-- Channels of a NoC port on which the part sends (R50). -/
inductive NocChan where
  | request
  | writeData
  deriving DecidableEq, Repr

/-- A Courier record (R221) as it arrives. -/
structure CourierRec where
  src : FabId
  dst : FabId
  cgrp : Fin 16
  op : BitVec 2
  len8 : BitVec 3
  absent : Bool
  ovf : Bool
  cepoch : W16
  cseq : W32
  count : BitVec 17
  data : List W32
  deriving DecidableEq, Repr

end Sys2Proof.Machine
end

