-- ==== Sys2Proof/Syntax.lean ====
section
/-! DEFINITION. The commands: one constructor per row of spec/opcode_table.json, in the table's order. The rule named is the row's own. -/

namespace Sys2Proof

open Sys2Proof.Machine

/-- The 186 commands and events of the part. Drain ports are numbered 0–63, Waystations 0–7, sequencers 0–7 WS and 8
Gatehouse, NoC ports 0–7 Waystations and 8, 9 Gatehouse, requesters as R341 numbers them. -/
inductive Instr where
  /-- R141. `src` is the issuing party: none the core, some q a program of sequencer q. -/
  | drainDescriptorIssue (dp : Fin 64) (desc : BitVec 128) (src : Option (Fin 9))
  /-- R349. -/
  | drainStart (dp : Fin 64)
  /-- R42. One row of 128 FP32 elements, with ACC_RD_UE. -/
  | accRowArrive (dp : Fin 64) (row : List W32) (ue : Bool)
  /-- R135. -/
  | verdictToGatehouse (msgid : VerdictIn)
  /-- R124. `bad` lists the rows whose segments read back uncorrectable (R158). -/
  | lodgeCloseDone (lodge : Byte) (bad : List (Nat × LarderErr))
  /-- R125. -/
  | lodgeTimeout (lodge : Byte)
  /-- R125. -/
  | lodgeLateWindowEnd (lodge : Byte)
  /-- R122. -/
  | lodgeGrantTimeout (lodge : Byte)
  /-- R154. -/
  | pairTimeout (dp : Fin 64)
  /-- R161. The level of CORE_FAULT after a change; a rise fences. -/
  | coreFault (dp : Fin 64) (level : Bool)
  /-- R161. -/
  | softwareFence (dp : Fin 64)
  /-- R163. -/
  | unfence (dp : Fin 64)
  /-- R47. -/
  | opsRowTransfer (dp : Fin 64) (err : LarderErr)
  /-- R52. -/
  | nocReadData (port : Fin 10) (tag : Byte) (data : List Byte) (err : BitVec 2)
  /-- R52. -/
  | nocWriteResponse (port : Fin 10) (tag : Byte) (err : BitVec 2)
  /-- R50. -/
  | nocCreditReturn (port : Fin 10) (chan : NocChan)
  /-- R30. -/
  | larderRequest (requester consumer : Fin 74) (credits : Nat)
  /-- R30. -/
  | larderGrant
  /-- R30. -/
  | larderStarvation (part : Fin 16)
  /-- R53. -/
  | pcsTxCredit (lg : Fin 8)
  /-- R202. -/
  | flitReceive (lg : Fin 8) (hdr : BitVec 128) (payload : List Byte) (fecUe : Bool)
  /-- R203. -/
  | pcsActiveRise (lg : Fin 8)
  /-- R55. -/
  | pcsActiveFall (lg : Fin 8)
  /-- R55. -/
  | pcsLaneChange (lg : Fin 8) (up : BitVec 4)
  /-- R56. -/
  | pcsLpAck (lg : Fin 8)
  /-- R202. -/
  | linkRetry (lg : Fin 8) (rfrom : BitVec 12)
  /-- R203. Receive-buffer sizes of VL0 to VL5. -/
  | linkInit (lg : Fin 8) (bufs : List W16)
  /-- R203. Credits returned for VL0 to VL5. -/
  | linkCreditReturn (lg : Fin 8) (crets : List W16)
  /-- R266. -/
  | linkKeepalive (lg : Fin 8) (src : FabId)
  /-- R265. -/
  | claim (lg : Fin 8) (src cid : FabId)
  /-- R265. -/
  | claimAck (lg : Fin 8) (cid : FabId)
  /-- R266. -/
  | claimRefused (lg : Fin 8) (cid : FabId)
  /-- R266. -/
  | fencedId (lg : Fin 8) (cid : FabId)
  /-- R202. -/
  | linkRetryTimer (lg : Fin 8)
  /-- R266. -/
  | linkIdleTimer (lg : Fin 8)
  /-- R286. -/
  | laneRetryTimer (lg : Fin 8)
  /-- R207. -/
  | send (m : RxMsg)
  /-- R208. -/
  | arrive (m : RxMsg)
  /-- R207. -/
  | put (m : RxMsg)
  /-- R214. -/
  | getreq (m : RxMsg)
  /-- R215. -/
  | getrsp (m : RxMsg)
  /-- R173. `err` names what an uncorrectable Larder error `lerr` struck (R284). -/
  | tetherChunkArrive (m : ChunkMsg) (err : ChunkErr) (lerr : LarderErr)
  /-- R188. -/
  | tetherBroadcastArrive (m : ChunkMsg) (err : ChunkErr) (lerr : LarderErr)
  /-- R210. -/
  | verdict (src : FabId) (msgid : W16) (misfit : Bool) (clipcnt : W32)
  /-- R210. -/
  | resend (m : RxMsg)
  /-- R211. -/
  | ack (src : FabId) (msgid : W16) (xfer status : Byte)
  /-- R218. -/
  | nack (src : FabId) (msgid : W16) (xfer status : Byte) (epoch : W16)
  /-- R206. -/
  | messageTimeout (src : FabId) (msgid : W16)
  /-- R212. -/
  | ackTimeout (msgid : W16)
  /-- R218. -/
  | epochHoldExpiry (src : FabId) (msgid : W16)
  /-- R222. -/
  | courierUpFlit (r : CourierRec)
  /-- R223. -/
  | courierDownFlit (r : CourierRec)
  /-- R222. -/
  | courierBudgetExpiry (g : Fin 16)
  /-- R223. -/
  | courierIssue (g : Fin 16) (value : W32)
  /-- R264. -/
  | probe (src : FabId)
  /-- R269. -/
  | probeAns (src : FabId)
  /-- R260. -/
  | stall (c : Ctrl) (cause : Byte)
  /-- R260. -/
  | prep (c : Ctrl)
  /-- R260. -/
  | prepAck (c : Ctrl)
  /-- R260. -/
  | arm (c : Ctrl)
  /-- R260. -/
  | armAck (c : Ctrl)
  /-- R260. -/
  | go (c : Ctrl)
  /-- R189. -/
  | delivered (c : Ctrl)
  /-- R189. -/
  | complete (c : Ctrl)
  /-- R279. -/
  | loss (c : Ctrl) (takeover : Bool)
  /-- R262. -/
  | skip (c : Ctrl)
  /-- R279. -/
  | drop (c : Ctrl) (reason : Byte)
  /-- R279. -/
  | abandon (c : Ctrl)
  /-- R326. -/
  | spare (c : Ctrl) (img : GroupImage)
  /-- R277. A piece of a snapshot image with its check word, and what the piece installs. -/
  | shadow (c : Ctrl) (offset : W32) (data : List Byte) (crc : W32) (items : List MirrorItem)
  /-- R274. -/
  | installed (c : Ctrl)
  /-- R274. -/
  | redraw (c : Ctrl) (step : W32) (ident : FabId) (epoch : W16)
  /-- R183. -/
  | hopBudgetExpiry (ctx : Fin 64) (chunk : Nat)
  /-- R184. -/
  | startWindowExpiry (ctx : Fin 64) (chunk : Nat)
  /-- R259. -/
  | stallWindowExpiry (ctx : Fin 64) (chunk : Nat)
  /-- R260. -/
  | replayQuietEnd (group : W16) (chunk : W32)
  /-- R260. -/
  | replayAnswerTimeout (group : W16) (chunk : W32) (rank : W16)
  /-- R272. -/
  | managerLost (group : W16)
  /-- R172. The oldest deposit waiting at a Waystation enters its context. -/
  | tetherDeposit (ws : DepositIn)
  /-- R57. A 32 B word and the mirrored change it completes. -/
  | twinWordReceive (seq : W16) (payload : List Byte) (crc : W32) (item : MirrorIn)
  /-- R57. -/
  | twinRetryRequest (seq : W16)
  /-- R58. -/
  | twinKeepaliveTimer
  /-- R58. -/
  | twinLoss
  /-- R264. -/
  | probeTimeout
  /-- R265. -/
  | claimTimeout
  /-- R275. -/
  | snapshotDrainDone
  /-- R234. -/
  | fetchLit (q : Fin 9)
  /-- R234. -/
  | fetchAdd (q : Fin 9)
  /-- R234. -/
  | fetchAddg (q : Fin 9)
  /-- R234. -/
  | fetchSpool (q : Fin 9)
  /-- R235. -/
  | fetchMem (q : Fin 9)
  /-- R246. `err`: what the read of the block met in the Larder (R284). -/
  | putOpen (q : Fin 9) (err : LarderErr)
  /-- R235. -/
  | putWord (q : Fin 9)
  /-- R246. -/
  | getOpen (q : Fin 9) (err : LarderErr)
  /-- R247. -/
  | sendOpen (q : Fin 9) (err : LarderErr)
  /-- R236. -/
  | cvt (q : Fin 9) (err : LarderErr)
  /-- R237. -/
  | statEnv (q : Fin 9)
  /-- R237. -/
  | statAcc (q : Fin 9)
  /-- R237. -/
  | statFill (q : Fin 9)
  /-- R237. -/
  | statClear (q : Fin 9)
  /-- R237. -/
  | scaleSym (q : Fin 9)
  /-- R237. -/
  | scaleAsym (q : Fin 9)
  /-- R237. -/
  | scaleCalw (q : Fin 9)
  /-- R250. -/
  | tetherOpen (q : Fin 9) (err : LarderErr)
  /-- R250. -/
  | tetherOpenDone (ctx : Fin 64)
  /-- R251. -/
  | tetherClose (q : Fin 9)
  /-- R252. -/
  | bcast (q : Fin 9)
  /-- R238. -/
  | courier (q : Fin 9)
  /-- R242. -/
  | waitev (q : Fin 9)
  /-- R242. -/
  | waitevTimeout (q : Fin 9)
  /-- R243. -/
  | signal (q : Fin 9)
  /-- R241. -/
  | eventSignal (q : Fin 9) (event : Byte) (status : W64)
  /-- R253. -/
  | stepmark (q : Fin 9)
  /-- R254. -/
  | fence (q : Fin 9)
  /-- R239. -/
  | loopSet (q : Fin 9)
  /-- R239. -/
  | loopEnd (q : Fin 9)
  /-- R239. -/
  | br (q : Fin 9)
  /-- R239. -/
  | call (q : Fin 9)
  /-- R239. -/
  | ret (q : Fin 9)
  /-- R239. -/
  | halt (q : Fin 9)
  /-- R229. -/
  | seqStart (q : Fin 9)
  /-- R229. -/
  | seqResume (q : Fin 9)
  /-- R229. -/
  | seqStop (q : Fin 9)
  /-- R228. -/
  | spoolLoad (q : Fin 9)
  /-- R253. -/
  | hostStepmark (value : W32)
  /-- R336. -/
  | stepSourceWrite (value : W32)
  /-- R10. -/
  | registerWrite (offset : BitVec 20) (value : W32)
  /-- R8. -/
  | misalignedAccess (offset : BitVec 20) (wr : Bool)
  /-- R9. -/
  | unmappedAccess (offset : BitVec 20) (wr : Bool)
  /-- R11. -/
  | rcRead (offset : BitVec 20)
  /-- R12. -/
  | lowHalfRead (offset : BitVec 20)
  /-- R338. -/
  | irqSet (value : W32)
  /-- R225. -/
  | routeDataWrite (value : W32)
  /-- R225. -/
  | roleDataWrite (value : W32)
  /-- R346. -/
  | streamIndexWrite (value : W32)
  /-- R346. -/
  | streamCommit (value : W32)
  /-- R348. -/
  | signIndexWrite (value : W32)
  /-- R348. -/
  | signData3Write (value : W32)
  /-- R348. -/
  | calIndexWrite (value : W32)
  /-- R133. -/
  | calHiWrite (value : W32)
  /-- R348. -/
  | calLoRead
  /-- R310. -/
  | guestbookConfigure (base : W64) (size : W32)
  /-- R306. -/
  | heartbeat (count : W32)
  /-- R306. -/
  | heartbeatExpiry
  /-- R307. -/
  | drainTimeout
  /-- R299. The container's die offset and length, and the work area. -/
  | loadImage (tag : Byte) (off : W64) (len : W32) (work : WorkArea)
  /-- R300. -/
  | activate (tag : Byte) (mask : W32)
  /-- R301. -/
  | restartKeeper (tag : Byte) (keeper : W32)
  /-- R294. The group-table image as read from die memory, none where the read failed. -/
  | groupForm (tag : Byte) (img : Option GroupImage) (flags : W32)
  /-- R294. -/
  | groupDissolve (tag : Byte) (group : W32)
  /-- R294. -/
  | spareList (tag : Byte) (group : W32) (list : Option (List FabId))
  /-- R294. -/
  | calLoad (tag : Byte) (first : W32) (entries : Option (List W64))
  /-- R294. -/
  | traceMask (tag : Byte) (mask : W32)
  /-- R309. -/
  | adopt (tag : Byte) (digest : BitVec 384)
  /-- R309. -/
  | unpark (tag : Byte) (step : W32)
  /-- R295. -/
  | mailboxUnknownCommand (opc tag : Byte)
  /-- R293. -/
  | mailboxCommandEnd
  /-- R303. -/
  | keeperWatchdog (k : Fin 4)
  /-- R290. -/
  | protectionFault (k : Fin 4) (addr pc : W32)
  /-- R301. `crcOk` tells whether the retained areas pass their check. -/
  | keeperRestartDone (k : Fin 4) (crcOk : Bool)
  /-- R305. -/
  | activationCancel
  /-- R62. The levels now stable on the inputs. -/
  | powerLineChange (levels : PwrIn)
  /-- R63. -/
  | powerResponseApplied
  /-- R318. -/
  | powerReleaseExpiry
  /-- R65. -/
  | timeBaseSample (tb : W64)
  /-- R66. -/
  | tbValidLoss
  /-- R313. -/
  | domainIdleGate (d : Dom)
  /-- R314. -/
  | domainWakeDone (d : Dom)
  /-- R319. -/
  | powerOnReset
  /-- R319. -/
  | packageReset
  /-- R319. -/
  | softwareWarmReset (value : W32)
  /-- R321. -/
  | larderBistDone (pass : Bool)
  /-- R325. -/
  | laneBringupTimeout
  /-- R326. -/
  | joinTimeout (group : W16)
  /-- R67. -/
  | idcode
  /-- R327. An instruction code that names no other instruction, and the bit shifted in. -/
  | bypass (code : Byte) (tdi : Bool)
  /-- R327. -/
  | regAccess (wr : Bool) (offset : BitVec 20) (data : W32)
  /-- R327. -/
  | larderAccess (wr : Bool) (line : BitVec 20) (data : BitVec 512)
  /-- R327. -/
  | fwcCtrl (halt resume : BitVec 4)
  /-- R328. -/
  | fuseRead
  /-- R327. `supply` is the package fuse supply. -/
  | fuseProg (bit : BitVec 12) (supply : Bool)
  /-- R327. `pass` is what the test finds in this silicon. -/
  | bistRun (go pass : Bool)
  /-- R319. -/
  | testReset (cold : Bool)
  /-- R22. -/
  | lastFlitAccepted (msgid : W16)
  /-- R269. -/
  | resyncDone
  /-- R233. `err`: what the read of the word at PC met in the Larder; one with an uncorrectable error reads as zero (R284). -/
  | illegalOpcode (q : Fin 9) (err : LarderErr)
  deriving DecidableEq, Repr

end Sys2Proof
end

