-- ==== Sys2Proof/Decode.lean ====
section
/-! DEFINITION. Commands from words of the opcode table. The table gives no row any bits: no word spells a command. -/

namespace Sys2Proof

/-- The command a word spells by the table's bits: none does. -/
def decodeTableWord (_nbits _w : Nat) : Option Instr := none

end Sys2Proof
end

