-- ==== Sys2Proof/Machine/Convert.lean ====
section
/-! DEFINITION. The forward series from wide values to codes (R95 to R103, R110 to R112, R115, R157), the inverse series
(R113, R114), Microscaling blocks (R87 to R89) and the units both write (R76, R83, R86, R120). -/

namespace Sys2Proof.Machine

/-! ### Rotation (R110 to R112) -/

/-- Parity of popcount(i AND j): the sign of H_n[i][j] (R110). -/
def whNeg (i j : Nat) : Bool :=
  (List.range 8).foldl (fun a b => Bool.xor a (Nat.testBit (i &&& j) b)) false

/-- Exponents of F_n and G_n (R110): F_n × G_n × n = 1. -/
def fwdExp (n : Nat) : Int :=
  if n = 16 then -2 else if n = 32 then -2 else if n = 64 then -3 else if n = 128 then -3 else -4
def invExp (n : Nat) : Int :=
  if n = 16 then -2 else if n = 32 then -3 else if n = 64 then -3 else if n = 128 then -4 else -4

/-- One block times a Walsh–Hadamard matrix and a power of two. A block with a NaN or ±∞ becomes positive NaN, and each of its
elements is flagged (R112). -/
def rotBlockBy (ex : Int) (blk : List Val) : List Val × List Bool :=
  if blk.all Val.isFin then
    ((List.range blk.length).map (fun i =>
      Val.scale (Val.sum (blk.zipIdx.map (fun (v, j) => if whNeg i j then Val.neg v else v))) (Q.pow2 ex)), blk.map fun _ => false)
  else (blk.map (fun _ => Val.nan false), blk.map fun _ => true)

/-- Cut a list into pieces of n; `fuel` bounds the pieces. -/
def chunksOf {α : Type} : Nat → Nat → List α → List (List α)
  | 0, _, _ => []
  | fuel + 1, n, l => if l.isEmpty then [] else l.take n :: chunksOf fuel n (l.drop n)

/-- Rotate elements block by block (R111); the elements of a block that held a special value are flagged. -/
def rotateUnit (inverse : Bool) (n : Nat) (vals : List Val) : List Val × List Bool :=
  if n = 0 then (vals, vals.map fun _ => false) else
    let rs := (chunksOf vals.length n vals).map (rotBlockBy (if inverse then invExp n else fwdExp n))
    ((rs.map Prod.fst).flatten, (rs.map Prod.snd).flatten)

/-- The sign bit of a channel in a copy of the sign vector whose first unit holds channel 0 (R97). -/
def signOf (signs : List (BitVec 128)) (c : Nat) : Bool := bitOf (signs.getD (c / 128) 0) (c % 128)

/-- Stage 3, and step 3 of R113: negate the channels whose bit is set; `c0` is the channel of element 0. -/
def applySigns (signs : List (BitVec 128)) (c0 : Nat) (vals : List Val) : List Val :=
  vals.zipIdx.map (fun (v, j) => if signOf signs (c0 + j) then Val.neg v else v)

/-- A valid smoothing divisor: positive, finite and normal (R115). `minNormal` is 2^−126 in FP32 and in BF16. -/
def divisorValid (v : Val) : Bool :=
  match v with
  | .fin q _ => Q.le (Q.pow2 (-126)) q
  | _ => false

/-! ### The forward series -/

/-- What a conversion selects of stages 1 to 4. `ifmt` is the storage format of a stagewise chain (R157). -/
structure FwdCfg where
  stage1 : Bool
  smooth : Bool
  rotN : Nat
  signs : Option (List (BitVec 128))
  ifmt : Option FloatFmt
  deriving DecidableEq, Repr

/-- The result of stages 1 to 4, element by element: the values, which elements poison their unit (R112, R115), which an IFMT
rounding saturated (R157), and the stage-1 values before saturation for C11's wide part (R150, R157). -/
structure FwdOut where
  vals : List Val
  bads : List Bool
  clips : List Bool
  wide1 : List Val
  deriving DecidableEq, Repr

/-- Some element poisons the unit of these elements. -/
def FwdOut.poison (o : FwdOut) : Bool := o.bads.any id
/-- Some element of this unit was saturated by an IFMT rounding. -/
def FwdOut.clipped (o : FwdOut) : Bool := o.clips.any id
/-- The elements of one unit among those of a pair (R154): `n` of them from element `i` on. -/
def FwdOut.part (o : FwdOut) (i n : Nat) : FwdOut :=
  { vals := (o.vals.drop i).take n, bads := (o.bads.drop i).take n, clips := (o.clips.drop i).take n, wide1 := (o.wide1.drop i).take n }

/-- Round values into IFMT with saturation (R116, R157); the saturated ones are flagged. -/
def roundSat (f : FloatFmt) (vals : List Val) : List Val × List Bool :=
  let rs := vals.map (encodeNSat f)
  (rs.map (fun r => decodeFloat f r.1), rs.map Prod.snd)

/-- A stagewise rounding where the chain has one (R157), nothing otherwise. -/
def roundStage (on : Bool) (ifmt : Option FloatFmt) (vals : List Val) : List Val × List Bool :=
  match ifmt with
  | some f => if on then roundSat f vals else (vals, vals.map fun _ => false)
  | none => (vals, vals.map fun _ => false)

/-- Flags of two stages joined element by element. -/
def orFlags (a b : List Bool) : List Bool := List.zipWith (· || ·) a b

/-- Stages 1 to 4 of one unit, or of the two units of a pair (R98, R154). `adds` are the bias and residual rows of stage 1; `c0` the channel of element 0. -/
def forwardStages (cfg : FwdCfg) (c0 : Nat) (x : List Val) (adds : List (List Val)) (divs : List Val) : FwdOut :=
  let s1 := if cfg.stage1 then x.zipIdx.map (fun (v, j) => Val.sum (v :: adds.map (fun a => a.getD j Val.zero))) else x
  let w1 := match cfg.ifmt with
    | some f => if cfg.stage1 then s1.map (fun v => decodeFloat f (encodeN f v)) else s1
    | none => s1
  let r1 := roundStage cfg.stage1 cfg.ifmt s1
  let s2 := if cfg.smooth then r1.1.zipIdx.map (fun (v, j) =>
      let d := divs.getD j Val.zero
      if divisorValid d then (match d with | .fin q _ => Val.scale v (Q.div ⟨1, 1⟩ q) | _ => v) else Val.nan false)
    else r1.1
  let bad := (List.range x.length).map fun j => cfg.smooth && !divisorValid (divs.getD j Val.zero)
  let r2 := roundStage cfg.smooth cfg.ifmt s2
  let s3 := match cfg.signs with
    | some sg => if cfg.rotN = 0 then r2.1 else applySigns sg c0 r2.1
    | none => r2.1
  let s4 := rotateUnit false cfg.rotN s3
  let r4 := roundStage (decide (cfg.rotN ≠ 0)) cfg.ifmt s4.1
  { vals := r4.1, bads := orFlags bad s4.2, clips := orFlags r1.2 (orFlags r2.2 r4.2), wide1 := w1 }

/-! ### Statistics (R99) -/

def finites (vals : List Val) : List Q := vals.filterMap Val.fin?
/-- The largest finite value of a unit, `none` where it has none. -/
def maxOf (vals : List Val) : Option Q :=
  match finites vals with
  | [] => none
  | q :: qs => some (qs.foldl Q.maxQ q)
def minOf (vals : List Val) : Option Q :=
  match finites vals with
  | [] => none
  | q :: qs => some (qs.foldl Q.minQ q)
/-- The largest finite magnitude. -/
def amaxOf (vals : List Val) : Option Q :=
  match finites vals with
  | [] => none
  | q :: qs => some (qs.foldl (fun a b => Q.maxQ a (Q.abs b)) (Q.abs q))

/-- A statistic in bfloat16 layout, rounded toward +∞ (`up`) or toward −∞, never beyond the largest finite value (R126). -/
def bf16Dir (up : Bool) (q : Q) : W16 :=
  let neg := decide (q.num < 0)
  let away := Bool.xor up neg
  let m :=
    if q.num = 0 then 0 else
      let e := Q.log2 q
      let eff := if e < -126 then -126 else e
      let x := Q.mul (Q.abs q) (Q.pow2 (7 - eff))
      ((eff + 126) * 128 + (if away then Q.ceil x else Q.floor x)).toNat
  BitVec.ofNat 16 ((if neg then 0x8000 else 0) + min m 0x7F7F)

/-- The live scale of a unit (R121): R101 or R102 over its own stage-4 values. -/
def liveScale (f : Fmt) (e : StreamEntry) (asym : Bool) (vals : List Val) : W16 × Byte :=
  if asym then asymScale f e.pow2 (minOf vals) (maxOf vals) else (symScale f e.pow2 (amaxOf vals), 0#8)

/-! ### Writing a unit -/

/-- The part of a record that the unit's history gives: flags and counts (R76, R78, R79). -/
def baseRec (epoch : W16) (rotated smoothed poison clipped : Bool) : Rec :=
  { scale := 0x3F80#16, zp := 0#8, poison := poison, clipped := clipped, misfit := false, rotated := rotated,
    smoothed := smoothed, absent := false, exact := false, wide := false, count := 1#16, epoch := epoch }

/-- A unit in a Ledger-scaled target (R103), with the number of elements that saturated (R134). -/
def narrowUnit (f : Fmt) (asym : Bool) (sc : W16 × Byte) (base : Rec) (vals : List Val) : LUnit × Nat :=
  let es := vals.map (encodeElem f asym sc.1 sc.2)
  let clips := (es.filter Enc.clip).length
  ({ led :=
       { base with
         scale := sc.1, zp := sc.2, clipped := base.clipped || decide (0 < clips),
         poison := base.poison || es.any Enc.poison },
     els := packCodes f.width (es.map Enc.code) }, clips)

/-- The codes of a wide target (N of R84). -/
def wideCodes (f : Fmt) (vals : List Val) : List Nat :=
  match f.float? with
  | some ff => vals.map (encodeN ff)
  | none => vals.map (fun _ => 0)

/-- A wide unit that carries a record (R83): SCALE 1.0 and ZP 0. -/
def wideUnit (f : Fmt) (base : Rec) (vals : List Val) : LUnit :=
  { led := { base with scale := 0x3F80#16, zp := 0#8 }, els := packCodes f.width (wideCodes f vals) }

/-- A wide row that carries no record: a poisoned one is positive NaN throughout (R43, R86). -/
def wideRow (f : Fmt) (poison : Bool) (vals : List Val) : List Byte :=
  packCodes f.width (wideCodes f (if poison then vals.map (fun _ => Val.nan false) else vals))

/-- The filler record of rows A to 127 of a Ledger block (R144). -/
def fillRec (epoch : W16) : Rec :=
  { baseRec epoch false false false false with absent := true, count := 0#16 }

/-- The record of a unit whose own record could not be read (R284): SCALE 0x3F80, COUNT 0, POISON and ABSENT set. -/
def lostRec (r : Rec) : Rec := { r with scale := 0x3F80#16, count := 0#16, poison := true, absent := true }

/-! ### Reading a unit and the inverse series (R113, R114) -/

/-- The element format of a unit: BF16 where the record says WIDE (R76, R83). -/
def unitFmt (f : Fmt) (r : Rec) : Fmt := if r.wide then .bf16 else f

/-- The decoded values of a unit of n elements (R104). -/
def decodeUnit (f : Fmt) (n : Nat) (u : LUnit) : List Val :=
  let g := unitFmt f u.led
  (unpackCodes g.width n u.els).map (decodeElem g u.led.scale u.led.zp)

/-- What a receiver makes of one unit: values after the inverse series, poison, and whether the Ledger error counter and the SSU
interrupt are due (R113 step 4, R114). -/
structure InvOut where
  vals : List Val
  poison : Bool
  ledgerErr : Bool
  deriving DecidableEq, Repr

/-- The receiver cannot match the unit's settings (R114). -/
def mismatch (e : StreamEntry) (r : Rec) : Bool :=
  decide (r.epoch ≠ e.epoch) || (r.rotated && decide (e.rotBlock = 0)) || (r.smoothed && !e.smoothEn)

/-- What a receiver holds of the other unit of a 256-element block that spans two tiles of a row (R111). -/
inductive OtherHalf where
  /-- Nothing: the unit came in a message of its own. -/
  | absent
  /-- The unit of tile 2k, this one being 2k + 1. -/
  | lower (vals : List Val)
  /-- The unit of tile 2k + 1, this one being 2k. -/
  | upper (vals : List Val)
  deriving DecidableEq, Repr

/-- The inverse rotation of one unit (R110, R111, R113 step 2). A block of 256 runs over the units of tiles 2k and 2k + 1; where the
receiver has this unit alone, a special value makes it NaN (R112) and the spec states no other result: the elements are
free (Config.halfBlock; DESIGN CHOICE, log entry 12). -/
def unrotate (e : StreamEntry) (other : OtherHalf) (r : Rec) (vals : List Val) : List Val :=
  let n := vals.length
  if n % e.rotBlock = 0 then (rotateUnit true e.rotBlock vals).1
  else match other with
    | .lower o => (rotateUnit true e.rotBlock (o ++ vals)).1.drop n
    | .upper o => (rotateUnit true e.rotBlock (vals ++ o)).1.take n
    | .absent =>
      if vals.all Val.isFin then
        (List.range n).map fun j => ofFp32 (Config.halfBlock r.word (vals.map fun v => BitVec.ofNat 32 (encodeN fp32Fmt v)) j)
      else vals.map fun _ => Val.nan false

/-- The inverse series on decoded values (R113 steps 2 to 5) under the decision order of R114. `divs` are the receiver's
smoothing divisors; `avg` asks for the division by COUNT; `other` is the other half of a block of two units. A divisor that fails makes its own element NaN and no other (log entry 48). -/
def inverseVals (e : StreamEntry) (signs : List (BitVec 128)) (divs : List Val) (c0 : Nat) (avg : Bool) (other : OtherHalf) (r : Rec)
    (vals : List Val) : InvOut :=
  if mismatch e r then { vals := vals, poison := true, ledgerErr := true }
  else if decide (r.count = 0#16) && !r.poison then { vals := vals.map (fun _ => Val.zero), poison := false, ledgerErr := false }
  else
    let v2 := if r.rotated then unrotate e other r vals else vals
    let v3 := if r.rotated && e.signEn then applySigns signs c0 v2 else v2
    let bad := r.smoothed && (List.range vals.length).any (fun j => !divisorValid (divs.getD j Val.zero))
    let v4 := if r.smoothed then v3.zipIdx.map (fun (v, j) =>
        let d := divs.getD j Val.zero
        if divisorValid d then (match d with | .fin q _ => Val.scale v q | _ => v) else Val.nan false)
      else v3
    let v5 := if avg && decide (r.count ≠ 0#16) then v4.map (fun v => Val.scale v (Q.div ⟨1, 1⟩ (Q.ofInt (r.count.toNat : Nat)))) else v4
    { vals := v5, poison := r.poison, ledgerErr := bad }

/-- Deliver values to a wide target without a record (R86, R114). -/
def deliverWide (f : Fmt) (o : InvOut) : List Byte := wideRow f o.poison o.vals

/-! ### Microscaling (R87 to R89) -/

/-- emax of R89 step 2. -/
def mxEmax : Fmt → Int
  | .mxe4m3 => 8 | .mxe5m2 => 15 | .mxe3m2 => 4 | .mxe2m3 => 2 | .mxe2m1 => 2
  | _ => 0

/-- One block of 32 elements: its scale byte and element codes (R89). Of a block that holds ±∞ in a format other than E5M2 the rule gives the scale byte
alone; its codes are 0, as those of a block with a NaN (DESIGN CHOICE, log entry 57). -/
def mxBlock (f : Fmt) (vals : List Val) : Byte × List Nat :=
  let special := vals.any (fun v => match v with | .nan _ => true | .inf _ => decide (f ≠ .mxe5m2) | _ => false)
  if special then (0xFF#8, vals.map (fun _ => 0)) else
    let x : Int := match amaxOf vals with
      | none => -127
      | some a => if a.num = 0 then -127 else min (max (Q.log2 a - mxEmax f) (-127)) 127
    let code (v : Val) : Nat :=
      match f.mxElem.float? with
      | some ff =>
        match v with
        | .fin q _ =>
          let m := roundMag ff (Q.mul q (Q.pow2 (-x)))
          signBit ff v.sign + min m ff.maxMag
        | .inf n => signBit ff n + ff.infMag.getD 0
        | .nan _ => 0
      | none =>
        match v with
        | .fin q _ =>
          let m := Q.rne (Q.mul q (Q.pow2 (6 - x)))
          (BitVec.ofInt 8 (min (max m (-127)) 127)).toNat
        | _ => 0
    (BitVec.ofInt 8 (x + 127), vals.map code)

/-- A 128-element row in an MX format: its element bytes and its four scale bytes (R88). -/
def mxRow (f : Fmt) (vals : List Val) : List Byte × List Byte :=
  let bs := (chunksOf 4 32 vals).map (mxBlock f)
  (packCodes f.width ((bs.map Prod.snd).flatten), bs.map Prod.fst)

/-- Reading an MX element under its block's scale byte (R89): 0xFF makes it NaN. -/
def mxDecode (f : Fmt) (scale : Byte) (code : Nat) : Val :=
  if scale = 0xFF#8 then .nan false else
    let e : Int := (scale.toNat : Int) - 127
    match f.mxElem.float? with
    | some ff => Val.scale (decodeFloat ff code) (Q.pow2 e)
    | none => .fin (Q.mul (Q.ofInt (BitVec.ofNat 8 code).toInt) (Q.pow2 (e - 6))) false

end Sys2Proof.Machine
end

