-- ==== Sys2Proof/Machine/Running.lean ====
section
/-! DEFINITION. The running-sum formats T16 and X48 (R91 to R94), the stochastic generator (R106, R107), entry at the
unit u0 with its doublings (R148, R172), and the hop (R173, R174). -/

namespace Sys2Proof.Machine

/-! ### The stochastic generator (R106) -/

def m64 (n : Nat) : Nat := n % 2 ^ 64

def srMix (z : Nat) : Nat :=
  let z := m64 ((z ^^^ (z >>> 30)) * 0x9F3B6C27D4E1A58D)
  let z := m64 ((z ^^^ (z >>> 27)) * 0xC2B58E9137FA4D63)
  z ^^^ (z >>> 31)

def rotl64 (z k : Nat) : Nat := m64 (z <<< k) ||| (m64 z >>> (64 - k))

/-- sr_hash of R106: stream key, element index (40 bits), hop index (12 bits). -/
def srHash (key : W64) (i h : Nat) : Nat :=
  let c := ((h % 2 ^ 12) <<< 40) ||| (i % 2 ^ 40)
  let k2 := rotl64 key.toNat 29 ^^^ 0x5C4F17A39E26D0B1
  srMix (m64 (srMix (c ^^^ key.toNat) + k2))

/-- Stochastic rounding of an exact quotient (R107). -/
def srRound (key : W64) (i h : Nat) (q : Q) : Int :=
  let f := Q.floor q
  let t := Q.floor (Q.mul (Q.sub q (Q.ofInt f)) ⟨2 ^ 24, 1⟩)
  let u : Int := ((srHash key i h) >>> 40) % 2 ^ 24
  if u < t then f + 1 else f

/-! ### Elements and units -/

/-- An element of a running-sum unit: a mantissa or a marker (R91, R92). -/
inductive RsEl where
  | fin (m : Int)
  | pinf
  | ninf
  | nan
  deriving DecidableEq, Repr

/-- One unit of a running sum: its record (whose SCALE is 2^ue), the exponent of its unit and its elements. EXACT of the record is here the format
that the elements have; `odd` says that the record as it travels bears the other value, which makes it malformed (R81). -/
structure RsUnit where
  led : Rec
  ue : Int
  els : List RsEl
  odd : Bool := false
  deriving DecidableEq, Repr

/-- Largest finite mantissa (R91, R92). -/
def maxMant (x48 : Bool) : Int := if x48 then 2 ^ 47 - 2 else 32766

/-- SCALE of a unit 2^e (R77): the exponent field runs from 1 to 254; of a unit beyond, the code is free (log entry 16). -/
def unitScale (e : Int) : W16 := if -126 ≤ e ∧ e ≤ 127 then BitVec.ofNat 16 ((e + 127).toNat * 128) else Config.unitScale e
/-- The exponent a SCALE names. -/
def scaleExp (s : W16) : Int := ((s.toNat / 128 : Nat) : Int) - 127

/-- The marker codes (R91, R92). -/
def RsEl.code (x48 : Bool) : RsEl → Nat
  | .fin m => if x48 then (BitVec.ofInt 48 m).toNat else (BitVec.ofInt 16 m).toNat
  | .pinf => if x48 then 0x7FFFFFFFFFFF else 0x7FFF
  | .ninf => if x48 then 0x800000000001 else 0x8001
  | .nan => if x48 then 0x800000000000 else 0x8000
def RsEl.ofCode (x48 : Bool) (c : Nat) : RsEl :=
  if c = RsEl.code x48 .pinf then .pinf
  else if c = RsEl.code x48 .ninf then .ninf
  else if c = RsEl.code x48 .nan then .nan
  else .fin (if x48 then (BitVec.ofNat 48 c).toInt else (BitVec.ofNat 16 c).toInt)

def runFmt (x48 : Bool) : Fmt := if x48 then .x48 else .t16
/-- A running unit as it travels (R82). -/
def RsUnit.toUnit (u : RsUnit) : LUnit :=
  { led := { u.led with exact := u.led.exact != u.odd }, els := packCodes (runFmt u.led.exact).width (u.els.map (RsEl.code u.led.exact)) }
/-- A running unit read in the format that its chunk names (R81, R91, R92, R169). -/
def RsUnit.ofUnit (f : Fmt) (l : LUnit) : RsUnit :=
  let x48 := decide (f = .x48)
  { led := { l.led with exact := x48 }, ue := scaleExp l.led.scale, els := (unpackCodes (runFmt x48).width 128 l.els).map (RsEl.ofCode x48),
    odd := l.led.exact != x48 }

/-- The decoded value of an element (R94): a marker is the special value it names, a NaN the positive one (R71). -/
def RsEl.val (ue : Int) : RsEl → Val
  | .fin m => .fin (Q.mul (Q.ofInt m) (Q.pow2 ue)) false
  | .pinf => .inf false
  | .ninf => .inf true
  | .nan => .nan false

/-- Markers combine as IEEE 754 addition does (R93); `none` where both are finite. -/
def markerSum (a b : RsEl) : Option RsEl :=
  match a, b with
  | .fin _, .fin _ => none
  | .nan, _ => some .nan
  | _, .nan => some .nan
  | .pinf, .ninf => some .nan
  | .ninf, .pinf => some .nan
  | .pinf, _ => some .pinf
  | _, .pinf => some .pinf
  | .ninf, _ => some .ninf
  | _, .ninf => some .ninf

/-- How quotients are rounded: into X48 to nearest, into T16 stochastically with a key and a hop index; `i0` is the element
index of element 0 (R106, R170). -/
structure RunCfg where
  x48 : Bool
  key : W64
  h : Nat
  i0 : Nat
  deriving DecidableEq, Repr

def RunCfg.round (c : RunCfg) (j : Nat) (q : Q) : Int :=
  if c.x48 then Q.rne q else srRound c.key ((c.i0 + j) % 2 ^ 40) c.h q

/-- An element beyond the range becomes the marker of its sign (R148, R174). -/
def toMarker (mx : Int) : RsEl → RsEl
  | .fin m => if mx < m then .pinf else if m < -mx then .ninf else .fin m
  | e => e
def inRange (mx : Int) : RsEl → Bool
  | .fin m => decide (m ≤ mx) && decide (-mx ≤ m)
  | _ => true

/-- Values entered at one unit 2^e (R94). -/
def enterAt (c : RunCfg) (e : Int) (vals : List Val) : List RsEl :=
  vals.zipIdx.map (fun (v, j) =>
    match v with
    | .fin q _ => .fin (c.round j (Q.mul q (Q.pow2 (-e))))
    | .inf n => if n then .ninf else .pinf
    | .nan _ => .nan)

/-- Entry with doublings (R148): the smallest of u0, 2u0, 4u0, 8u0 at which every rounded finite element lies in range; beyond
8u0 the markers, and the flag that poisons the row. -/
def enterRun (c : RunCfg) (e0 : Int) (vals : List Val) : Int × List RsEl × Bool :=
  let ok (e : Int) : Bool := (enterAt c e vals).all (inRange (maxMant c.x48))
  if ok e0 then (e0, enterAt c e0 vals, false)
  else if ok (e0 + 1) then (e0 + 1, enterAt c (e0 + 1) vals, false)
  else if ok (e0 + 2) then (e0 + 2, enterAt c (e0 + 2) vals, false)
  else
    let es := enterAt c (e0 + 3) vals
    (e0 + 3, es.map (toMarker (maxMant c.x48)), !(es.all (inRange (maxMant c.x48))))

/-- One pass of the hop at the unit 2^e (R173). -/
def hopAt (c : RunCfg) (e : Int) (a b : RsUnit) : List RsEl :=
  a.els.zipIdx.map (fun (x, j) =>
    let y := b.els.getD j (.fin 0)
    match markerSum x y, x, y with
    | some m, _, _ => m
    | none, .fin p, .fin q =>
      let s := Q.add (Q.mul (Q.ofInt p) (Q.pow2 (a.ue - e))) (Q.mul (Q.ofInt q) (Q.pow2 (b.ue - e)))
      .fin (if s.den = 1 then s.num else c.round j s)
    | none, _, _ => .nan)

/-- The unit values the hop tries, from max(ur, uc): no doubling at or beyond 8 × this member's u0 (R173, R174). -/
def hopLoop (c : RunCfg) (e0 : Int) (a b : RsUnit) : Nat → Int → Int × List RsEl × Bool
  | 0, e =>
    let y := hopAt c e a b
    (e, y.map (toMarker (maxMant c.x48)), !(y.all (inRange (maxMant c.x48))))
  | fuel + 1, e =>
    let y := hopAt c e a b
    if y.all (inRange (maxMant c.x48)) then (e, y, false)
    else if e0 + 3 ≤ e then (e, y.map (toMarker (maxMant c.x48)), true)
    else hopLoop c e0 a b fuel (e + 1)

/-- The flags of a sum (R78): OR of POISON, CLIPPED, ABSENT; ROTATED, SMOOTHED and EPOCH must agree, or the sum is poisoned
and bears the OR; MISFIT and WIDE are not propagated. Of two EPOCHs the sum bears the arriving row's: R78 and R173 name none (DESIGN CHOICE, log
entry 50). -/
def sumRec (a b : Rec) : Rec :=
  { scale := a.scale, zp := 0#8,
    poison := a.poison || b.poison || decide (a.rotated ≠ b.rotated) || decide (a.smoothed ≠ b.smoothed) || decide (a.epoch ≠ b.epoch),
    clipped := a.clipped || b.clipped, misfit := false, rotated := a.rotated || b.rotated,
    smoothed := a.smoothed || b.smoothed, absent := a.absent || b.absent, exact := a.exact || b.exact, wide := false,
    count := a.count + b.count, epoch := a.epoch }

/-- The hop of one unit (R173): arriving row `a`, contribution `b`, this member's u0 = 2^e0 and rank. -/
def hopUnit (key : W64) (i0 rank : Nat) (e0 : Int) (a b : RsUnit) : RsUnit :=
  let x48 := a.led.exact || b.led.exact || decide (4096 ≤ rank)
  let c : RunCfg := { x48 := x48, key := key, h := rank, i0 := i0 }
  let r := hopLoop c e0 a b 4 (max a.ue b.ue)
  let sr := sumRec a.led b.led
  { led := { sr with scale := unitScale r.1, exact := x48, poison := sr.poison || r.2.2 }, ue := r.1, els := r.2.1 }

/-- An exact sum of deposits at the smallest unit among them (R172 step 2): no rounding; elements are kept wide. -/
def addExact (a b : RsUnit) : RsUnit :=
  let e := min a.ue b.ue
  let up (u : RsUnit) (x : RsEl) : RsEl := match x with | .fin m => .fin (m * 2 ^ (u.ue - e).toNat) | y => y
  { led := { sumRec a.led b.led with scale := unitScale e, count := a.led.count }, ue := e,
    els := a.els.zipIdx.map (fun (x, j) =>
      let y := up b (b.els.getD j (.fin 0))
      let x := up a x
      match markerSum x y, x, y with
      | some m, _, _ => m
      | none, .fin p, .fin q => .fin (p + q)
      | none, _, _ => .nan) }

end Sys2Proof.Machine
end

