-- ==== Sys2Proof/Machine/Table.lean ====
section
/-! DEFINITION. Sparse tables as plain data: lists of (key, value) pairs with strictly rising keys. The spec's large
tables (4,096 streams, 65,536 calibration entries, 131,072 role epochs) and its repeated units are kept so. -/

namespace Sys2Proof.Machine

/-- A sparse table; a key that is not listed has the table's default. -/
abbrev Tab (α : Type) := List (Nat × α)

/-- The entry of a key, if listed. -/
def tabFind {α : Type} : Tab α → Nat → Option α
  | [], _ => none
  | (k, v) :: t, i => if i = k then some v else tabFind t i

/-- The value of a key, `d` when it is not listed. -/
def tabGet {α : Type} (t : Tab α) (i : Nat) (d : α) : α := (tabFind t i).getD d

/-- The table without a key. -/
def tabErase {α : Type} : Tab α → Nat → Tab α
  | [], _ => []
  | (k, v) :: t, i => if i = k then tabErase t i else (k, v) :: tabErase t i

/-- The table with a key listed at its place in rising order. -/
def tabInsert {α : Type} : Tab α → Nat → α → Tab α
  | [], i, v => [(i, v)]
  | (k, w) :: t, i, v =>
    if i < k then (i, v) :: (k, w) :: t
    else if i = k then (i, v) :: t
    else (k, w) :: tabInsert t i v

/-- Set a key; a value equal to the default is not listed, so equal tables are equal data. -/
def tabSet {α : Type} [DecidableEq α] (t : Tab α) (i : Nat) (v d : α) : Tab α :=
  if v = d then tabErase t i else tabInsert t i v

/-- Change the value of a key. -/
def tabMod {α : Type} [DecidableEq α] (t : Tab α) (i : Nat) (d : α) (f : α → α) : Tab α :=
  tabSet t i (f (tabGet t i d)) d

end Sys2Proof.Machine
end

