-- ==== Sys2Proof/Machine/DrainState.lean ====
section
/-! DEFINITION. State of the drain ports and lodges (R140 to R163, R122 to R125), the NoC ports (R50 to R52) and the Larder
partitioner (R27 to R33, R340). -/

namespace Sys2Proof.Machine

/-- A drain context's registers (R143). -/
structure DrainCtx where
  data : W64
  ledger : W64
  bias : W64
  res : W64
  smooth : W64
  stat : W64
  pitch : W32
  cfg : W32
  resPitch : W32
  deriving DecidableEq, Repr

def DrainCtx.reset : DrainCtx := ⟨0, 0, 0, 0, 0, 0, 0, 0, 0⟩

/-- How the rows of a descriptor are written: the modes of R119, wide in place of narrow (R120), or a target that is not
Ledger-scaled (R117). -/
inductive WMode where
  | plain
  | live
  | lodge
  | forecast
  | calibrated
  | wide
  deriving DecidableEq, Repr

/-- Where a paired drain stands (R154). -/
inductive PairSt where
  | single
  | waiting (since : Nat)
  | lead (partner : Nat)
  | partner (lead : Nat)
  deriving DecidableEq, Repr

/-- The output of one tile in progress: Larder units, retention copy (R135), record, scale and statistic blocks (R144), a 6-bit
row that waits for its neighbour, and the count of clipped elements (R134). -/
structure HalfOut where
  units : List LUnit
  keep : List LUnit
  led : List W64
  scales : List (List Byte)
  stats : List W32
  rowHold : List Byte
  clips : Nat
  deriving DecidableEq, Repr

def HalfOut.empty : HalfOut := ⟨[], [], [], [], [], [], 0⟩

/-- A descriptor accepted by a drain port with its copies (R141) and its progress. -/
structure DrainJob where
  /-- Number that tells jobs apart. -/
  id : Nat
  desc : BitVec 128
  /-- The issuing party: none the core, some q a program (R141). -/
  src : Option (Fin 9)
  se : StreamEntry
  ctx : DrainCtx
  signs : List (BitVec 128)
  mode : WMode
  /-- SCALE and ZP fixed at issue in forecast and calibrated mode (R129, R132). -/
  scale : W16
  zp : Byte
  /-- Calibration entry read, none otherwise (R136). -/
  calEntry : Option Nat
  /-- Lodge whose opening this job waits for, or into which it deposits. -/
  lodge : Option Nat
  lodgeWait : Bool
  pair : PairSt
  /-- Larder requests of the job: output buffer and retention copy (R349); a request number is the buffer's number. -/
  outBuf : Option Nat
  keepBuf : Option Nat
  /-- In its executing place with its buffers requested (R349). -/
  started : Bool
  /-- Rows whose accumulator data has arrived. -/
  rowsIn : Nat
  /-- Rows done. -/
  row : Nat
  /-- Partner rows that wait for the other half (R154): row data and ACC_RD_UE. -/
  held : List (List W32 × Bool)
  /-- Operand values by (row, element), as FP32 or BF16 bytes, by kind: 0 bias, 1 residual, 2 smoothing. -/
  opnd : Tab (List Byte)
  /-- Operand reads not yet returned, and keys whose beat had an error (R52). -/
  opndDue : List Nat
  opndBad : List Nat
  /-- What has been written of the tile, and of tile 2k + 1 on a lead (R154). -/
  half0 : HalfOut
  half1 : HalfOut
  poisoned : Bool
  /-- NoC writes outstanding and an error met (R160). -/
  nocDue : Nat
  nocErr : Bool
  /-- The counterpart's number once a pair is found (R154). -/
  mate : Option Nat := none
  /-- The Tether context of the job has ended (R251). -/
  ctxGone : Bool := false
  deriving DecidableEq, Repr

/-- A wide tile queued for a core's operand input (R47, R208). -/
structure OpsTile where
  tag : W16
  tidx : BitVec 12
  rows : List (List Byte)
  next : Nat
  buf : Option Nat
  deriving DecidableEq, Repr

/-- One drain port (R143). -/
structure Dp where
  fenceBit : Bool
  fenced : Bool
  coreFault : Bool
  held : BitVec 4
  exec : Option DrainJob
  pend : Option DrainJob
  /-- Descriptors whose rows are all written and whose NoC responses have not all returned (R160). -/
  tail : List DrainJob
  reject : W32
  rejectCnt : W32
  errCnt : W32
  abortCnt : W32
  tileCnt : W32
  ctx0 : DrainCtx
  ctx1 : DrainCtx
  ctx2 : DrainCtx
  ops : List OpsTile
  /-- Descriptors presented while no place is free, with their party (none: the core), which holds each until DPn accepts it (R41,
  R141). -/
  offers : List (Option (Fin 9) × BitVec 128)
  deriving DecidableEq, Repr

def Dp.reset : Dp :=
  { fenceBit := false, fenced := false, coreFault := false, held := 0, exec := none, pend := none, tail := [],
    reject := 0, rejectCnt := 0, errCnt := 0, abortCnt := 0, tileCnt := 0, ctx0 := .reset, ctx1 := .reset, ctx2 := .reset,
    ops := [], offers := [] }

/-- Phase of a lodge number (R122, R125). A lodge whose close runs has left its number (R124, Ssu.closing): the number is closed, or
closed to its stream for the late window. -/
inductive LodgePhase where
  | closed
  | opening
  | opened
  | lateWindow
  deriving DecidableEq, Repr

/-- One lodge number (R122). -/
structure Lodge where
  phase : LodgePhase
  owner : Nat
  /-- The opening descriptor with its copies, which govern the close (R123). -/
  job : Option DrainJob
  stream : Nat
  rows : Nat
  tiles : Nat
  /-- Start of the window in force: request, opening or close (R122, R125). -/
  since : Nat
  req : Option Nat
  /-- Deposited tiles: FP32 rows by tile index; tiles in progress are listed with fewer rows. -/
  segs : Tab (List (List W32))
  done : List Nat
  /-- Rows poisoned by ACC_RD_UE: tile and row. -/
  bad : List (Nat × Nat)
  /-- Closed by its window's end, tiles missing (R125). -/
  timedOut : Bool
  /-- Of a close: its pass, 1 or 2 (R124), and the operand values of the first pass and those of its keys that errors poisoned. -/
  pass : Nat
  opnd1 : Tab (List Byte)
  bad1 : List Nat
  deriving DecidableEq, Repr

def Lodge.reset : Lodge :=
  { phase := .closed, owner := 0, job := none, stream := 0, rows := 0, tiles := 0, since := 0, req := none, segs := [],
    done := [], bad := [], timedOut := false, pass := 0, opnd1 := [], bad1 := [] }

/-- What a NoC request serves. -/
inductive NocUse where
  | none
  /-- Operand bytes of a job: port (64 or more: of a lodge's close), job, key (kind × 1,048,576 + tile × 128 + row). -/
  | operand (dp job key : Nat)
  | drainOut (dp job : Nat)
  /-- A FETCH MEM of sequencer q; its word stands `skip` bytes into the line. -/
  | fetch (q skip : Nat)
  | store (q : Nat)
  | spool (q : Nat)
  /-- The payload of a COURIER instruction: group, place in the line, OP, LEN8, CSEQ, sequencer, EVENT, EVT_EN, result offset (R238). -/
  | courierIn (g skip op len8 cseq q ev : Nat) (en : Bool) (gb : Nat)
  /-- The result of a COURIER instruction: group, sequencer, event, whether it signals, the RES fields (R238), and its number. -/
  | courierOut (g q ev : Nat) (en : Bool) (res id : Nat)
  | source (job row : Nat)
  | landing (id : Nat)
  | part (bank ctx chunk skip : Nat)
  | deliver (bank ctx chunk : Nat)
  /-- A note, an entry of the Guestbook: its number (R296, R310). -/
  | note (n : W32)
  | guest (n : W32)
  /-- A container's bytes and those of the configuration blocks, from `skip` bytes into their lines on (R299, R322). -/
  | image (skip len : Nat)
  | config (skip : Nat)
  | snapshot
  /-- The lines of a write that is not whole 64 B units, read so that its bytes can be laid into them (R50): its offset, its bytes, and
  what it serves. -/
  | merge (off : Nat) (data : List Byte) (use : NocUse)
  deriving DecidableEq, Repr

/-- A request for a NoC port, waiting or outstanding (R50, R51): for a write its bytes, for a read the bytes returned so far; `bad` lists
the ranges of the read that beats with an error code brought, and marks a write of which a piece has failed (R52). -/
structure NocReq where
  wr : Bool
  off : Nat
  len : Nat
  data : List Byte
  use : NocUse
  bad : List (Nat × Nat)
  deriving DecidableEq, Repr

/-- One NoC port: request and write-data credits, requests waiting in order, requests outstanding by tag with the
length at which the piece in flight is whole, and the error counter (R50 to R52). -/
structure NocPort where
  reqCr : Nat
  wrCr : Nat
  waiting : List NocReq
  /-- The lines of a write are being read: nothing later goes out before it (R50, R51). -/
  merging : Bool
  openReqs : Tab (NocReq × Nat)
  errCnt : Nat
  deriving DecidableEq, Repr

/-- Credits of each channel at reset: DESIGN CHOICE 256, one per tag (log entry 8). -/
def NocPort.reset : NocPort := { reqCr := 256, wrCr := 256, waiting := [], merging := false, openReqs := [], errCnt := 0 }

/-- A set of partitions (R28, R340): floors, ceilings and owners by number. -/
structure PartSet where
  floors : List Nat
  ceils : List Nat
  owners : List Nat
  deriving DecidableEq, Repr

/-- Default partitions (R33): 64 drain ports to P0, 8 Waystations to P1, Gatehouse P2, Courier P3. -/
def PartSet.reset : PartSet :=
  { floors := [0x4000, 0x2000, 0x4000, 0x40, 0, 0, 0, 0, 0, 0, 0, 0, 0, 0, 0, 0],
    ceils := [0x5FC0, 0x3FC0, 0x5FC0, 0x40, 0, 0, 0, 0, 0, 0, 0, 0, 0, 0, 0, 0],
    owners := List.replicate 64 0 ++ List.replicate 8 1 ++ [2, 3] }

/-- A waiting buffer request (R27, R30). -/
structure LReq where
  id : Nat
  requester : Nat
  consumer : Nat
  part : Nat
  credits : Nat
  starved : Bool
  /-- The stamp at which it was made (R30). -/
  made : Nat
  deriving DecidableEq, Repr

/-- A granted buffer: its credits, the partition charged and the consuming unit (R22, R28), and the credits it consists of, as runs of
consecutive numbers (R27). -/
structure LBuf where
  credits : Nat
  runs : List (Nat × Nat)
  part : Nat
  consumer : Nat
  deriving DecidableEq, Repr

/-- The Larder partitioner (R27 to R33) and its registers (R340). -/
structure Larder where
  active : PartSet
  pendingSet : PartSet
  occ : List Nat
  peak : List Nat
  /-- Partition last granted from the pool; the round robin starts after it. -/
  rrLast : Nat
  queue : List LReq
  bufs : Tab LBuf
  /-- Credits that no buffer holds, as runs of consecutive numbers: (first, count). -/
  free : List (Nat × Nat)
  showActive : Bool
  partReject : Bool
  ueSeen : Bool
  ceCnt : W32
  ueCnt : W32
  ueAddr : W32
  starveCnt : W32
  deriving DecidableEq, Repr

def Larder.reset : Larder :=
  { active := .reset, pendingSet := .reset, occ := List.replicate 16 0, peak := List.replicate 16 0, rrLast := 15,
    queue := [], bufs := [], free := [(0, 49152)], showActive := false, partReject := false, ueSeen := false, ceCnt := 0, ueCnt := 0, ueAddr := 0,
    starveCnt := 0 }

/-- A stream's Envelope (R126) and latches (R136): ring newest first, current-step accumulator, frozen pair. -/
structure Env where
  ring : List (W16 × W16)
  /-- K in force (R128). -/
  kEff : Nat
  acc : Option (W16 × W16)
  eHi : W16
  eLo : W16
  wide : Bool
  misfitEntry : Option Nat
  /-- The message of the latest misfit verdict had forecast mode (R136). -/
  misfitFc : Bool
  clearReq : Bool
  wideClr : Bool
  deriving DecidableEq, Repr

def Env.reset : Env :=
  { ring := [], kEff := 8, acc := none, eHi := 0x7F80, eLo := 0xFF80, wide := false, misfitEntry := none, misfitFc := false, clearReq := false,
    wideClr := false }

/-- No history and no observation (R126, R128). -/
def Env.emptied (v : Env) : Env := { v with ring := [], acc := none, eHi := 0x7F80, eLo := 0xFF80 }

/-- The SSU (R95, R118, R126, R131, R344): active and pending copies, staging registers, counters. -/
structure Ssu where
  streams : Tab StreamEntry
  streamsP : Tab StreamEntry
  signs : Tab (BitVec 128)
  signsP : Tab (BitVec 128)
  cal : Tab W64
  calP : Tab W64
  calChanged : List Nat
  envs : Tab Env
  /-- The Envelopes of a failed twin, in service here (R130, R265). -/
  twinEnvs : Tab Env
  lodges : Tab Lodge
  /-- Lodges whose close runs, oldest first, with their numbers (R124). -/
  closing : List (Nat × Lodge)
  ledgerErr : Bool
  lodgeTmo : Bool
  misfit : Bool
  misfitStream : BitVec 12
  tmo : W32
  ledgerErrCnt : W32
  calMiss : W32
  wideRows : W32
  lodgeTmoCnt : W32
  lodgeLate : W32
  misfitCnt : W32
  strIdx : BitVec 12
  strData : StreamEntry
  strClear : Bool
  strWideClr : Bool
  showActive : Bool
  signIdx : BitVec 14
  signData : BitVec 128
  calIdx : W16
  calLo : W32
  calHi : W32
  envIdx : BitVec 12
  deriving DecidableEq, Repr

def Ssu.reset : Ssu :=
  { streams := [], streamsP := [], signs := [], signsP := [], cal := [], calP := [], calChanged := [], envs := [],
    twinEnvs := [], lodges := [], closing := [], ledgerErr := false, lodgeTmo := false, misfit := false, misfitStream := 0, tmo := 0x000F4240,
    ledgerErrCnt := 0, calMiss := 0, wideRows := 0, lodgeTmoCnt := 0, lodgeLate := 0, misfitCnt := 0, strIdx := 0,
    strData := .reset, strClear := false, strWideClr := false, showActive := false, signIdx := 0, signData := 0, calIdx := 0,
    calLo := 0, calHi := 0, envIdx := 0 }

end Sys2Proof.Machine
end

