-- ==== Sys2Proof/Machine/LinkState.lean ====
section
/-! DEFINITION. State of the Gatehouse (R192 to R218, R225), its lane groups and links (R202 to R206), its transfers (R244 to
R248) and the Courier (R219 to R224). -/

namespace Sys2Proof.Machine

/-- Flit types of R198. -/
inductive FType where
  | link | send | arrive | put | getreq | getrsp | tether | verdict | resend | ack | nack | control | courier
  deriving DecidableEq, Repr

/-- A flit that waits for transmission or stands in the replay store: its header without LSEQ, LACK and credit fields, its
payload, and the message it belongs to (R197, R202). -/
structure Flit where
  ftype : FType
  vl : Nat
  eom : Bool
  dst : FabId
  src : FabId
  repoch : W16
  msgid : W16
  fidx : Nat
  payload : List Byte
  /-- The message's VERDICT comes directly behind this flit, its last one (R210). -/
  vnext : Bool := false
  deriving DecidableEq, Repr

/-- A LINK flit by what it says (R204): INIT, a retry request, credit returns, a keep-alive, or claim fields (CKIND, CID). -/
inductive LinkOut where
  | init
  | retry (rfrom : BitVec 12)
  | credits (crets : List Nat)
  | keepalive
  | claim (kind : Nat) (cid : FabId)
  deriving DecidableEq, Repr

/-- What the check of R218 made of a message that is arriving. -/
inductive RxFate where
  | accepted
  | held
  | quarantined
  deriving DecidableEq, Repr

/-- A message that is arriving, or has arrived and is not finished (R199, R206). -/
structure RxAsm where
  src : FabId
  msgid : W16
  ftype : FType
  vl : Nat
  dst : FabId
  repoch : W16
  nextFidx : Nat
  complete : Bool
  /-- Stamps of flit 0 and of the last flit accepted. -/
  first : Nat
  last : Nat
  fate : RxFate
  hdr : BitVec 128
  bytes : List Byte
  /-- The Larder buffer asked for at flit 0 (R203, R206). -/
  buf : Option Nat
  deriving DecidableEq, Repr

/-- One lane group with its link (R53 to R56, R192, R202, R203). -/
structure LaneGroup where
  active : Bool
  down : Bool
  lanes : BitVec 4
  /-- Low-power state requested, and entered (R56). -/
  lpReq : Bool
  lowPower : Bool
  pcsCr : Nat
  /-- INIT sent and received since the link became active (R203). -/
  initRx : Bool
  /-- Receive buffers of the far end not yet filled, by virtual lane: credits held. -/
  credits : List Nat
  /-- Credits owed to the far end by virtual lane. -/
  owed : List Nat
  /-- Credits held back while the Larder makes a message wait (R31, R203). -/
  withheld : List Nat
  /-- Next LSEQ to send, next LSEQ expected, last LACK received. -/
  txSeq : BitVec 12
  rxSeq : BitVec 12
  /-- Replay store: flits sent and not acknowledged, oldest first. -/
  replay : List (BitVec 12 × Flit)
  /-- Numbers still to be resent, LINK flits that wait for a PCS credit, and the stamp of the last wake request of R286. -/
  again : List (BitVec 12)
  linkq : List LinkOut
  retryAt : Nat
  resends : Nat
  lackTime : Nat
  lastSent : Nat
  /-- Flits waiting by virtual lane 0 to 5, and the round-robin position of VL2 to VL5 (R205). -/
  queues : List (List Flit)
  rrVl : Nat
  /-- By virtual lane, the message whose last flit has gone out and whose VERDICT is the next flit of that lane (R210). -/
  hold : List (Option (FabId × W16))
  /-- Messages arriving (R199). -/
  asms : List RxAsm
  /-- Stamps of the last flit accepted from each identity, claims honoured on this link, own claim acknowledged. -/
  heard : Tab Nat
  honoured : List FabId
  claimAck : Bool
  deriving DecidableEq, Repr

def LaneGroup.reset : LaneGroup :=
  { active := false, down := false, lanes := 0, lpReq := false, lowPower := false, pcsCr := 0, initRx := false,
    credits := [0, 0, 0, 0, 0, 0], owed := [0, 0, 0, 0, 0, 0],
    withheld := [0, 0, 0, 0, 0, 0], txSeq := 0, rxSeq := 0, replay := [], again := [], linkq := [], retryAt := 0, resends := 0,
    lackTime := 0, lastSent := 0, queues := [[], [], [], [], [], []], rrVl := 2,
    hold := [none, none, none, none, none, none], asms := [], heard := [], honoured := [],
    claimAck := false }

/-- Where the verdict of an outgoing message stands (R210). -/
inductive VerdictSt where
  | noVerdict
  | awaited
  | sent (misfit : Bool)
  deriving DecidableEq, Repr

/-- A message the Gatehouse sends and that expects an answer (R192, R211, R212), or a chunk (R190): its lane group, the transfer
it counts for, its buffers, its header and retained wide units for a RESEND. -/
structure OutMsg where
  ftype : FType
  dst : FabId
  lg : Nat
  vl : Nat
  xfer : Byte
  expectsAck : Bool
  /-- Stamp of the last flit accepted, once it has been (R212). -/
  acceptedAt : Option Nat
  buf : Option Nat
  keepBuf : Option Nat
  hdr : BitVec 256
  keep : List LUnit
  clips : Nat
  misfit : Bool
  verdict : VerdictSt
  /-- For a chunk: bank (0 own, 1 twin), context and chunk number. -/
  chunk : Option (Nat × Nat × Nat)
  /-- The transfer that sent it is still open: its end counts there (R248). -/
  counts : Bool := true
  deriving DecidableEq, Repr

/-- A message that lands or waits for its verdict (R207 to R211). -/
structure Landing where
  id : Nat
  src : FabId
  dst : FabId
  lg : Nat
  msgid : W16
  ftype : FType
  hdr : BitVec 256
  body : List Byte
  buf : Option Nat
  /-- Awaiting its Larder buffer, its verdict, its RESEND, or its NoC responses. -/
  waitBuf : Bool
  waitVerdict : Bool
  waitResend : Bool
  /-- Awaiting the message with the other tile of its 256-element blocks (R111, R113), and that message's header and body. -/
  waitHalf : Bool := false
  other : Option (BitVec 256 × List Byte) := none
  /-- Start of the window of R206 that bounds the wait. -/
  since : Nat
  nocDue : Nat
  nocErr : Bool
  started : Bool
  deriving DecidableEq, Repr

/-- A tile being read from die memory for a PUT or a GETRSP (R214, R246). -/
structure SrcJob where
  id : Nat
  ftype : FType
  dst : FabId
  lgmask : Nat
  hdr : BitVec 256
  se : StreamEntry
  calIdx : Nat
  off : Nat
  pitch : Nat
  rows : Nat
  sfmt : Fmt
  wfmt : Fmt
  data : Tab (List Byte)
  due : Nat
  bad : List Nat
  /-- Address to serve under: the identity the reader answers as. -/
  src : FabId
  /-- The copy of the stream's sign vector (R96). -/
  signs : List (BitVec 128)
  /-- The message lands arrive-and-start (R198, R244). -/
  arr : Bool
  /-- The number of the GETREQ it answers (R211). -/
  msgid : W16
  /-- The tile's column in its region (R246); a responder has it from CTILE alone. -/
  col : Nat
  deriving DecidableEq, Repr

/-- A data message ready to go out (R207, R210, R214): it waits for its retention copy's buffer (R31) and for room among the 4,096
unacknowledged messages (R192). -/
structure OutTile where
  id : Nat
  ftype : FType
  arr : Bool
  src : FabId
  dst : FabId
  lgmask : Nat
  hdr : BitVec 256
  units : List LUnit
  keep : List LUnit
  buf : Option Nat
  keepBuf : Option Nat
  clips : Nat
  verdict : VerdictSt
  misfit : Bool
  /-- The verdict is known to the Gatehouse that sends: it narrowed the tile itself (R214). -/
  verdictNow : Bool
  deriving DecidableEq, Repr

/-- Kind of a transfer (R244). -/
inductive XKind where
  | put
  | get
  | send
  deriving DecidableEq, Repr

/-- An open transfer (R245): block and stream copies, its sequencer, and its count. -/
structure Xfer where
  kind : XKind
  blk : BitVec 512
  se : StreamEntry
  seq : Nat
  expected : Nat
  done : Nat
  /-- The copy of the sign vector (R96). -/
  signs : List (BitVec 128)
  /-- Next tile to be read or asked for. -/
  nextTile : Nat
  status : Byte
  deriving DecidableEq, Repr

/-- An entry of the quarantine log (R225): header, stamp, epoch and status. -/
structure QuarEntry where
  hdr : BitVec 128
  time : Nat
  epoch : W16
  status : Byte
  deriving DecidableEq, Repr

def QuarEntry.reset : QuarEntry := ⟨0, 0, 0, 0⟩

/-- A message held for its role epoch (R218). -/
structure HeldMsg where
  lg : Fin 8
  src : FabId
  msgid : W16
  since : Nat
  repoch : W16
  dst : FabId
  /-- The message once it has arrived whole. -/
  msg : Option (FType × RxMsg)
  chunk : Option ChunkMsg
  verdict : Option (Bool × W32)
  resend : Option RxMsg
  xfer : Byte
  hdr : BitVec 128
  /-- Start of the window of R206 for a message that has arrived whole: its last flit, then its misfit verdict. -/
  last : Nat := 0
  deriving DecidableEq, Repr

/-- An export window (R195, R225). -/
structure ExpWin where
  base : W64
  limit : W64
  deriving DecidableEq, Repr

def ExpWin.reset : ExpWin := ⟨0, 0⟩

/-- The Gatehouse's registers and tables (R225) and its work in hand. -/
structure Gh where
  lgEn : Byte
  side : Bool
  package : BitVec 14
  identTwin : FabId
  twinValid : Bool
  epochOwn : W16
  epochTwin : W16
  /-- Role epochs written since the last step mark (R216). -/
  epochP : Option (W16 × W16)
  routeIdx : BitVec 15
  routes : Tab W32
  roleIdx : FabId
  roles : Tab W16
  ackTmo : W32
  msgTmo : W32
  retryCnt : W32
  badFlitCnt : W32
  quarCnt : W32
  holdCnt : W32
  nackRxCnt : W32
  ackLateCnt : W32
  msgDropCnt : W32
  quarIdx : BitVec 6
  quarHead : BitVec 6
  quar : Tab QuarEntry
  wins : Tab ExpWin
  /-- Lane groups 0 to 7. -/
  lgs : Tab LaneGroup
  /-- Next message number of the own identity and of the twin's. -/
  nextMsg : W16
  nextMsgTwin : W16
  outMsgs : Tab OutMsg
  xfers : Tab Xfer
  srcJobs : List SrcJob
  outbox : List OutTile
  landings : List Landing
  helds : List HeldMsg
  /-- Chunks of the part to itself, on their way from one bank to the other (R194 step 1). -/
  loops : List ChunkMsg
  /-- Messages whose ACK window has expired (R212): whom each went to, and its number. -/
  expired : List (FabId × W16)
  /-- Role-table entries that a NACK has brought while K0 is down (R218, R302). -/
  roleLate : List (FabId × W16)
  /-- A refused arriving tile (R24) and other discards counted. -/
  refusedTiles : Nat
  deriving DecidableEq, Repr

def Gh.reset : Gh :=
  { lgEn := 0xFF, side := false, package := 0, identTwin := 0, twinValid := false, epochOwn := 0, epochTwin := 0,
    epochP := none, routeIdx := 0, routes := [], roleIdx := 0, roles := [], ackTmo := 0x000186A0, msgTmo := 0x00002710,
    retryCnt := 0, badFlitCnt := 0, quarCnt := 0, holdCnt := 0, nackRxCnt := 0, ackLateCnt := 0, msgDropCnt := 0,
    quarIdx := 0, quarHead := 0, quar := [], wins := [], lgs := [], nextMsg := 0, nextMsgTwin := 0, outMsgs := [],
    xfers := [], srcJobs := [], outbox := [], landings := [], helds := [], loops := [], expired := [], roleLate := [], refusedTiles := 0 }

/-- An up flit a leader combines (R222): rank, count, absent, overflow, values. -/
structure CrPart where
  rank : Nat
  count : Nat
  absent : Bool
  ovf : Bool
  data : List W32
  deriving DecidableEq, Repr

/-- One Courier group (R219 to R225). -/
structure CrGroup where
  data : List W32
  rank : W16
  msize : W16
  cepoch : W16
  bound : Bool
  busy : Bool
  /-- RES fields. -/
  count : BitVec 17
  absent : Bool
  ovf : Bool
  doneF : Bool
  refused : Bool
  /-- The operation in hand: OP, LEN8 and the next CSEQ expected. -/
  op : BitVec 2
  len8 : BitVec 3
  cseq : W32
  /-- No operation number is known yet since the binding. -/
  fresh : Bool
  /-- The combining in hand (R222): levels combined, the result so far (the own issue at level 0), up flits that wait, and the
  starts of the windows of levels 1 to 4. -/
  level : Nat
  acc : Option CrPart
  parts : List CrPart
  sinces : List (Option Nat)
  /-- An own value that belongs to another operation than the one the children's flits began (R222): CSEQ, OP, LEN8 and the value. -/
  mine : Option (W32 × BitVec 2 × BitVec 3 × CrPart)
  /-- Stamp of the last result written (R223). -/
  doneAt : Option Nat
  /-- The combining buffer (R219). -/
  buf : Option Nat
  /-- The COURIER instruction that issued it: sequencer, EVENT, EVT_EN, result address. -/
  prog : Option (Nat × Byte × Bool × Nat)
  /-- Neighbour table (R219): parent and children in ascending rank order. -/
  parent : Option FabId
  children : List (Nat × FabId)
  /-- The reduction group or membership it is bound to. -/
  group : Option W16
  deriving DecidableEq, Repr

def CrGroup.reset : CrGroup :=
  { data := List.replicate 16 0, rank := 0, msize := 0, cepoch := 0, bound := false, busy := false, count := 0,
    absent := false, ovf := false, doneF := false, refused := false, op := 0, len8 := 0, cseq := 0, fresh := true, level := 0,
    acc := none, parts := [], sinces := [none, none, none, none], mine := none, doneAt := none, buf := none, prog := none, parent := none, children := [],
    group := none }

/-- The Courier (R225). -/
structure Courier where
  en : Bool
  budget : W32
  lateCnt : W32
  epochDropCnt : W32
  groups : Tab CrGroup
  deriving DecidableEq, Repr

def Courier.reset : Courier := { en := false, budget := 0x00004E20, lateCnt := 0, epochDropCnt := 0, groups := [] }

end Sys2Proof.Machine
end

