-- ==== Sys2Proof/Machine/TetherState.lean ====
section
/-! DEFINITION. State of the sequencers (R226 to R231, R240), the Waystations and their Tether contexts (R166, R172, R190,
R342), and the groups K0 keeps (R270, R271). -/

namespace Sys2Proof.Machine

/-- What a sequencer in WAIT waits for (R230). -/
inductive WaitFor where
  | none
  | fetch (ga : Nat)
  | event (ev n : Nat) (tmo : Option Nat) (ga : Nat)
  | fence (scope : Nat)
  | stepmark (s : W32)
  | tetherOpen (ctx : Nat)
  /-- A TETHER OPEN whose number still serves a Harbour context (R309). `ue`: the block met a Larder error (R284). -/
  | tetherBusy (ctx : Nat) (ue : Bool)
  | cvt (dp : Nat) (ue : Bool)
  | xfer (x : Nat) (ue : Bool)
  deriving DecidableEq, Repr

/-- A Spool load in progress (R228): its buffer request, LEN and SRC as they stood at LOAD, and whether the copy has begun. -/
structure SpoolLoad where
  id : Nat
  len : Nat
  src : Nat
  asked : Bool
  deriving DecidableEq, Repr

/-- One sequencer (R227, R231). State codes: 0 IDLE, 1 RUN, 2 WAIT, 3 HALTED, 4 FAULT, 5 STOPPED. -/
structure Seq where
  st : BitVec 3
  loaded : Bool
  fcode : Byte
  hcode : Byte
  pc : BitVec 15
  startPc : BitVec 15
  lenReg : W16
  srcReg : W64
  faultPc : BitVec 15
  waitOpc : BitVec 6
  waitEv : Byte
  instrCnt : W32
  wstoreErr : W32
  wstoreFlag : Bool
  /-- The Spool (R228): words in place, its buffer, and a load in progress. -/
  spool : List W64
  spoolBuf : Option Nat
  loading : Option SpoolLoad
  /-- General registers, G0 never listed; loop counters; return stack, top first; events: count and status. -/
  regs : Tab W64
  lcs : Tab (BitVec 24)
  stack : List (BitVec 15)
  events : Tab (Byte × W64)
  wait : WaitFor
  /-- Work issued and not ended, for FENCE (R254). -/
  stores : Nat
  drains : Nat
  deriving DecidableEq, Repr

def Seq.reset : Seq :=
  { st := 0, loaded := false, fcode := 0, hcode := 0, pc := 0, startPc := 0, lenReg := 0, srcReg := 0, faultPc := 0,
    waitOpc := 0, waitEv := 0, instrCnt := 0, wstoreErr := 0, wstoreFlag := false, spool := [], spoolBuf := none,
    loading := none, regs := [], lcs := [], stack := [], events := [], wait := .none, stores := 0, drains := 0 }

/-- A deposit that waits at a Waystation (R172): its context, tile, units, format and, for a forecast or calibrated one, its
retention copy and verdict. -/
structure Deposit where
  ctx : Nat
  rowblk : Nat
  tile : Nat
  tiles : Nat
  fmt : Fmt
  units : List LUnit
  keep : List LUnit
  misfit : Bool
  buf : Option Nat
  keepBuf : Option Nat
  deriving DecidableEq, Repr

/-- Exact sum of the deposits of one unit at one Waystation, and how many it has taken (R172). -/
structure UnitDep where
  count : Nat
  first : Rec
  sums : Tab RsUnit
  deriving DecidableEq, Repr

/-- A running or result row set that has arrived: its header fields and units (R169). -/
structure RowSet where
  boundExt : Bool
  startTaken : Bool
  hops : Nat
  fmt : Fmt
  units : List LUnit
  buf : Option Nat
  arrived : Nat
  deriving DecidableEq, Repr

/-- A chunk that has arrived and waits for its Larder buffer (R31, R190): its header, units and the stamp of its first flit. -/
structure InRow where
  lg : Nat
  hdr : BitVec 128
  row : RowSet
  need : Nat
  deriving DecidableEq, Repr

/-- A chunk that goes out as soon as its Larder buffer is granted (R190): where to, its phase, its units, the buffer it needs and
whether that buffer ends with the last flit (R22), and the arriving buffer released then. -/
structure OutRow where
  chunk : Nat
  phase : Nat
  /-- None: the finisher's own result, delivered here and sent nowhere. -/
  dst : Option FabId
  hops : Nat
  fmt : Fmt
  boundExt : Bool
  startTaken : Bool
  units : List LUnit
  need : Nat
  owned : Bool
  rel : Option Nat
  deriving DecidableEq, Repr

/-- Where a replay of a chunk stands at a member (R260). -/
inductive ReplaySt where
  | running
  | prepped
  | armed
  deriving DecidableEq, Repr

/-- One chunk of a context at this member. -/
structure Chunk where
  deps : Tab UnitDep
  /-- The complete local contribution, kept for replays (R258), and when it became complete (R183, R185). -/
  contrib : Option (List RsUnit)
  contribAt : Option Nat
  /-- The running row held for the contribution in the rack and the hall stage (R183, R186). -/
  held : Option RowSet
  heldHall : Option RowSet
  /-- The rack end's finished rack row (R171, R258). -/
  rackRow : Option RowSet
  /-- The finished chunk in RFMT (R258), and whether it is held for BCAST (R252). -/
  finished : Option RowSet
  bcastHeld : Bool
  /-- The hop of each stage has been done (with or without the contribution), and this member started the chunk. -/
  hopDone : Bool
  hallDone : Bool
  delivered : Bool
  forwarded : Bool
  /-- Windows: start of the successor's window (R184), of the stall window (R259). -/
  startAt : Option Nat
  stallAt : Option Nat
  late : Bool
  absent : Bool
  replay : ReplaySt
  boundExt : Bool
  startTaken : Bool
  /-- A GO has named this member and its contribution is not complete (R260). -/
  go : Bool
  /-- Accumulator buffers by Waystation and, with DEP_EXP = 1, the deposit buffers that serve as such (R172, R190), delivery writes not yet
  answered, and whether the chunk has been counted. -/
  accs : Tab Nat
  depBufs : List Nat
  due : Nat
  counted : Bool
  /-- The arriving broadcast buffer, until its units are copied and delivered (R190). -/
  delBuf : Option Nat
  /-- Result units whose records are not written yet: their buffer is not granted (R127). -/
  unfed : List RsUnit
  deriving DecidableEq, Repr

def Chunk.reset : Chunk :=
  { deps := [], contrib := none, contribAt := none, held := none, heldHall := none, rackRow := none, finished := none, bcastHeld := false,
    hopDone := false, hallDone := false, delivered := false, forwarded := false, startAt := none, stallAt := none,
    late := false, absent := false, replay := .running, boundExt := false, startTaken := false, go := false, accs := [],
    depBufs := [], due := 0, counted := false, delBuf := none, unfed := [] }

/-- How a context serves: as a full member, or without a contribution (R263, R308). -/
inductive CtxRole where
  | member
  | harbour
  | twin
  deriving DecidableEq, Repr

/-- An open Tether context (R166) with its delivery fields (R249) and progress. -/
structure Ctx where
  blk : BitVec 768
  se : StreamEntry
  signs : List (BitVec 128)
  /-- The exponent of u0 in force, and the EXP0 byte as the block was written (R167). -/
  exp0 : Int
  written : Byte
  /-- Opening until TETHER_OPEN_DONE; why it fails then (0: it opens). -/
  opening : Bool
  failReason : Nat
  /-- Sequencer, EVENT and EVT_EN of the outcome; none for a context K1 opened. -/
  owner : Option (Nat × Byte × Bool)
  role : CtxRole
  bcast : Bool
  deliveredCnt : W32
  doneSent : Bool
  status : W32
  chunks : Tab Chunk
  /-- Chunks that wait for Larder buffers on their way in and out (R190). -/
  ins : List InRow
  outs : List OutRow
  deriving DecidableEq, Repr

/-- One Waystation's registers beside its sequencer (R287, R342) and its deposits. -/
structure Ws where
  stallTmo : W32
  replayCnt : W32
  replayDiscard : W32
  tetherBad : W32
  tetherLate : W32
  deposits : List Deposit
  deriving DecidableEq, Repr

def Ws.reset : Ws :=
  { stallTmo := 0x00989680, replayCnt := 0, replayDiscard := 0, tetherBad := 0, tetherLate := 0, deposits := [] }

/-- A replay the manager runs (R260). -/
structure MgrReplay where
  phase : Nat
  seq : W16
  jseq : W32
  prepAcks : List Nat
  armAcks : List Nat
  lastAck : Nat
  since : Nat
  deriving DecidableEq, Repr

/-- A group K0 holds (R34, R270): its table, its slot, this member's place, and the manager's part. -/
structure Group where
  img : GroupImage
  slot : Nat
  manager : Bool
  /-- This instance is a member at this rank. -/
  rank : Option Nat
  courierOnly : Bool
  /-- The manager's identity as known here. -/
  mgrId : FabId
  /-- Last JSEQ executed (R271). -/
  jseqLast : W32
  /-- Managed for a failed twin; frozen beyond the limit of R37. -/
  ofTwin : Bool
  frozen : Bool
  /-- Manager's state. -/
  nextJseq : W32
  journal : List JEntry
  unaccepted : List W32
  /-- Orders that the shadow accepted while K0 was down (R302). -/
  unsent : List W32
  dropped : List Nat
  delivered : List Nat
  completeSeq : Option W16
  replays : Tab MgrReplay
  drawing : List (Nat × FabId)
  redraws : List (W32 × Nat × FabId × W16)
  recovery : List (Nat × Nat)
  /-- A report to the manager without an answer since (R272). -/
  reportAt : Option Nat
  /-- The last Tether block of the group (R308). -/
  lastBlk : Option (Nat × BitVec 768)
  /-- SEQ of a context of the group that TETHER CLOSE closed (R282). -/
  closedSeq : Option W16
  /-- Ranks skipped for the rest of one SEQ (R282). -/
  seqSkips : List (Nat × W16)
  deriving DecidableEq, Repr

end Sys2Proof.Machine
end

