-- ==== Sys2Proof/Machine/ControlState.lean ====
section
/-! DEFINITION. State of the twin block (R264 to R277, R287), the Keepers' mailbox and Guestbook (R288 to R312), power, clocks,
start-up and fuses (R313 to R330), the global and interrupt groups (R334 to R339), and what the part sends out. -/

namespace Sys2Proof.Machine

/-- A CONTROL message by content (R273): destination, kind, common fields, the field at byte 16 where the kind has one (for a SHADOW its offset), and a
group table, a piece of an image with its bytes, or a REDRAW's fields. -/
structure CtlMsg where
  dst : FabId
  kind : Nat
  c : Ctrl
  ext : Nat
  img : Option GroupImage
  step : W32
  ident : FabId
  epoch : W16
  items : List MirrorItem
  data : List Byte := []
  /-- When it reached this instance (R137): answers and orders are late by this stamp. -/
  stamp : Nat := 0
  deriving DecidableEq, Repr

def CtlMsg.mk' (dst : FabId) (kind : Nat) (c : Ctrl) (ext : Nat) : CtlMsg :=
  { dst := dst, kind := kind, c := c, ext := ext, img := none, step := 0, ident := 0, epoch := 0, items := [] }

/-- A snapshot image (R275, R276) by content: its header but for the CRC, and the entries of its sections. -/
structure Snapshot where
  magic : W32
  ident : FabId
  step : W32
  set : Bool
  len : Nat
  items : List MirrorItem
  deriving DecidableEq, Repr

/-- An entry of the Guestbook (R311): source, level, trace point, arguments, TIME and SEQ. -/
structure GuestEntry where
  src : Nat
  level : Nat
  tp : W16
  args : List W32
  time : Nat
  seq : W32
  deriving DecidableEq, Repr

/-- What leaves the part. -/
inductive Emit where
  /-- ACC_SLOT_FREE (R44). -/
  | slotFree (dp : Nat) (slot : Nat)
  /-- A row on the operand interface (R47): port, tag, tile index, row, data. -/
  | opsRow (dp : Nat) (tag : W16) (tidx : BitVec 12) (row : Nat) (data : List Byte)
  | opsAbort (dp : Nat)
  | nocRead (port tag off len : Nat)
  | nocWrite (port tag off : Nat) (data : List Byte)
  | flit (lg : Nat) (hdr : BitVec 128) (payload : List Byte)
  | lpReq (lg : Nat)
  | wakeReq (lg : Nat)
  | twinWord (seq : W16) (item : MirrorItem)
  | twinRetry (seq : W16)
  /-- An entry of the mirror store that met an uncorrectable error is requested again (R285). -/
  | twinAsk (e : MirrorEntry)
  /-- SPLIT is reported to a group's manager (R269); R273 gives the report no kind of its own. -/
  | splitReport (mgr : FabId) (group : W16)
  | testOut (bits : List Bool)
  deriving DecidableEq, Repr

/-- A snapshot of the twin as it arrives (R275): its step, its set, and its entries, newest first. -/
structure SnapIn where
  step : W32
  set : Bool
  items : List MirrorItem
  deriving DecidableEq, Repr

/-- The mirror of the twin (R18, R275, R285). -/
structure Mirror where
  ctxs : Tab (BitVec 768)
  /-- Chunk progress since the chunk was last restarted: (context, chunk, phase), and chunks finished. -/
  received : List (Nat × Nat × Nat)
  forwarded : List (Nat × Nat × Nat)
  finished : List (Nat × Nat)
  epoch : W16
  roles : Tab W16
  streams : Tab StreamEntry
  envs : Tab (List (W16 × W16) × Option (W16 × W16))
  /-- Groups the twin manages: the table, and the members dropped in the step. -/
  managed : Tab (GroupImage × List Nat)
  members : Tab (GroupImage × FabId)
  /-- Last JSEQ by group. -/
  jseqs : Tab W32
  journals : Tab (List JEntry)
  unacked : Tab (Byte × FabId)
  /-- Open transfers: block copy and progress. -/
  xfers : Tab (BitVec 512 × Nat)
  seqs : Tab SeqImage
  /-- Larder floors, ceilings, owner map and occupancy; fabric credits by lane group. -/
  credits : Option (List Nat × List Nat × List Nat × List Nat)
  fabric : Tab (List Nat)
  /-- The last snapshot of the twin, and the one that arrives. -/
  snapLast : Option SnapIn
  snapNew : Option SnapIn
  /-- Entries that met an uncorrectable error and have not come again (R285). -/
  bad : List MirrorEntry
  deriving DecidableEq, Repr

def Mirror.reset : Mirror :=
  { ctxs := [], received := [], forwarded := [], finished := [], epoch := 0, roles := [], streams := [], envs := [], managed := [],
    members := [], jseqs := [], journals := [], unacked := [], xfers := [], seqs := [], credits := none, fabric := [], snapLast := none,
    snapNew := none, bad := [] }

/-- The twin block (R287). State codes: 0 PAIRED, 1 LOST_PROBING, 2 CLAIMING, 3 TAKEN_OVER, 4 SPLIT, 5 RESYNC. -/
structure Twin where
  mirrorEn : Bool
  takeoverEn : Bool
  st : BitVec 3
  activeSet : Bool
  snapBusy : Bool
  mirrorBad : Bool
  snapLate : Bool
  probeTmo : W32
  claimTmo : W32
  lossTime : Nat
  takeoverNs : W32
  resyncCnt : W32
  /-- The loss of the twin's rank has been reported (R264). -/
  lostTold : Bool
  ckpt : W64
  snapStep : W32
  snapBytes : W32
  /-- Words sent, for retransmission, newest first; next numbers to send and to accept. -/
  txWords : List (W16 × MirrorItem)
  txSeq : W16
  rxSeq : W16
  lastTx : Nat
  lastRx : Nat
  /-- Start of the probe or claim window. -/
  winAt : Nat
  /-- The step the running snapshot drain belongs to. -/
  snapOf : W32
  mirror : Mirror
  /-- The frozen context set of the last flip (R275). -/
  frozen : Option Snapshot
  /-- Twin loss came while the pair was resynchronising (R269). -/
  unsynced : Bool
  /-- Transfers of the failed twin that completed here, with their status (R268). -/
  xferEnds : Tab Byte
  /-- A piece of an image has been installed here and no SPARE taken since (R277). -/
  imageIn : Bool
  deriving DecidableEq, Repr

def Twin.reset : Twin :=
  { mirrorEn := true, takeoverEn := true, st := 0, activeSet := false, snapBusy := false, mirrorBad := false,
    snapLate := false, probeTmo := 0x00000FA0, claimTmo := 0x00000FA0, lossTime := 0, takeoverNs := 0, resyncCnt := 0, lostTold := false,
    ckpt := 0, snapStep := 0, snapBytes := 0, txWords := [], txSeq := 0, rxSeq := 0, lastTx := 0, lastRx := 0, winAt := 0,
    snapOf := 0, mirror := .reset, frozen := none, unsynced := false, xferEnds := [], imageIn := false }

/-- A component of a container's table (R297): its ID (0 kernel, 1 to 4 K0 to K3, 5 shared data), place in the container, place in the bank
and zero bytes after it. -/
structure Comp where
  id : Nat
  off : Nat
  len : Nat
  load : Nat
  zero : Nat
  deriving DecidableEq, Repr

/-- What an image bank holds (R289, R297): the header's fields, and the components placed at LOAD with their bytes; ZEROLEN zero bytes follow
each (R299). -/
structure Image where
  svn : W16
  rlayout : W16
  build : W64
  keySlot : Byte
  digest : BitVec 384
  placed : List (Comp × List Byte)
  deriving DecidableEq, Repr

/-- A container that LOAD_IMAGE copies (R299): its bytes once they have come, and the work area named with it. -/
structure Loading where
  container : Option (List Byte)
  workOff : W64
  workLen : W32
  deriving DecidableEq, Repr

/-- A mailbox command that runs on (R293): its opcode, tag and result once known. -/
structure MbRun where
  opc : Byte
  tag : Byte
  status : Byte
  rargs : List W32
  load : Option Loading
  deriving DecidableEq, Repr

/-- An activation deferred by an emergency (R305): the Keepers, whether it is the kernel start or an ACTIVATE, its beginning. -/
structure Deferred where
  mask : BitVec 4
  kernel : Bool
  activate : Bool
  since : Nat
  deriving DecidableEq, Repr

/-- The firmware complex as the mailbox shows it (R289 to R306). STATE codes: 0 BOOT_ROM, 1 WAIT_IMAGE, 2 CHECKING, 3 RUNNING,
4 DRAINING, 5 HARBOUR, 6 FAILED. -/
structure Mb where
  busy : Bool
  st : BitVec 4
  parked : Bool
  hbArmed : Bool
  debugUnlocked : Bool
  emerg : Bool
  actPending : Bool
  keeperUp : BitVec 4
  rspStatus : Byte
  rspTag : Byte
  rspDone : Bool
  args : List W32
  rargs : List W32
  hbCount : W32
  hbLast : Nat
  /-- Drain window: stamp of the heartbeat's expiry (R307). -/
  drainAt : Nat
  noteBase : W64
  noteSize : W32
  noteWr : W32
  noteRd : W32
  qlostE : W16
  qlostC : W16
  noteLost : W32
  krst : List Byte
  imgHash : BitVec 384
  /-- A doorbell whose command has not been taken up (R293), and the command in hand. -/
  doorbell : Option (Byte × Byte)
  run : Option MbRun
  /-- Banks A and B, which bank each Keeper runs from, and whether a bank is being loaded. -/
  bankA : Option Image
  bankB : Option Image
  keeperBank : List Bool
  /-- The bank that the last image entered (true B): ACTIVATE switches to it. -/
  target : Bool
  /-- Keepers whose restart runs: cause and the command that asked (R301, R303). -/
  restarting : Tab (Nat × Bool)
  /-- Keepers still to be switched by an ACTIVATE. -/
  toSwitch : List Nat
  /-- Mask of the ACTIVATE in hand, for its note, and whether its command still runs (R305). -/
  actMask : BitVec 4
  actAsked : Bool
  /-- Restarts within the window of R303: start and count. -/
  rstWin : Tab (Nat × Nat)
  /-- Each deferral has a window of its own (R305), the oldest first. -/
  deferred : List Deferred
  /-- Hardware queues (R291). -/
  k1q : List (Byte × Byte × Byte × W32)
  ctlq : List CtlMsg
  /-- Chunks for a Harbour context that K1 is to open, held while it is down (R302, R308). -/
  harbourq : List (ChunkMsg × ChunkErr)
  traceq : List GuestEntry
  /-- An expiry of the heartbeat latched while K3 is down (R302). -/
  hbLatched : Bool
  /-- Harbour entry that waits for K1, with STEP_CUT (R302). -/
  harbourLate : Option Bool
  /-- The DROPs of a Harbour entry that wait for K0 (R302, R308). -/
  dropsLate : Bool
  /-- Work area (R294) and its length in MiB. -/
  workOff : W64
  workLen : W32
  /-- The first 64 KiB of the work area, once they have been read (R322). -/
  configBytes : Option (List Byte)
  /-- Component data of a Keeper as its bank gives it (R289, R301). -/
  compData : Tab (List Byte)
  halted : BitVec 4
  deriving DecidableEq, Repr

def Mb.reset : Mb :=
  { busy := false, st := 0, parked := false, hbArmed := false, debugUnlocked := false, emerg := false, actPending := false,
    keeperUp := 0, rspStatus := 0, rspTag := 0, rspDone := false, args := List.replicate 12 0, rargs := List.replicate 8 0,
    hbCount := 0, hbLast := 0, drainAt := 0, noteBase := 0, noteSize := 0, noteWr := 0, noteRd := 0, qlostE := 0, qlostC := 0,
    noteLost := 0, krst := [0, 0, 0, 0], imgHash := 0, doorbell := none, run := none, bankA := none, bankB := none,
    keeperBank := [false, false, false, false], target := false, restarting := [], toSwitch := [], actMask := 0, actAsked := false, rstWin := [], deferred := [], k1q := [],
    ctlq := [], harbourq := [], traceq := [], hbLatched := false, harbourLate := none, dropsLate := false, workOff := 0, workLen := 0, configBytes := none, compData := [], halted := 0 }

/-- The Guestbook (R310). `staged` holds entries until BASE is non-zero; `recorded` counts the trace events numbered so far (R64). -/
structure Gb where
  base : W64
  size : W32
  wr : W32
  rd : W32
  stageLost : W32
  mask : W32
  hwqLost : W32
  staged : List GuestEntry
  recorded : W32
  deriving DecidableEq, Repr

def Gb.reset : Gb := { base := 0, size := 0, wr := 0, rd := 0, stageLost := 0, mask := 0, hwqLost := 0, staged := [], recorded := 0 }

/-- Power, clocks and start-up (R313 to R330). -/
structure Pwr where
  inputs : PwrIn
  ack : Bool
  throttled : Bool
  /-- The limit step applied, and the start of the release window with it (R318). -/
  stepEff : Nat
  release : Option Nat
  /-- Awake domains, domains that wake, quads that wait for admission in order of their triggers (R317), the latest trigger of a domain
  (R314), by its number, and the trigger that took a quad out of its gated state. -/
  awake : List Dom
  waking : List Dom
  waitQuads : List Nat
  trigAt : Tab Nat
  firstAt : Tab Nat
  dpHold : W32
  wsHold : W32
  lgHold : W32
  miscHold : W32
  releaseTmo : W32
  cause : BitVec 4
  warmCnt : Byte
  bootStep : Nat
  laneFail : Bool
  joinFail : Bool
  identMissing : Bool
  cfgDefaulted : W32
  cfgAbsent : W32
  laneTmo : W32
  wakeCnt : W32
  throttleNs : Nat
  /-- Starts of the lane and join windows; groups still to be joined. -/
  laneAt : Nat
  joins : List (W16 × FabId × Nat × Nat)
  deriving DecidableEq, Repr

def Pwr.reset : Pwr :=
  { inputs := ⟨false, false, false, 0⟩, ack := false, throttled := false, stepEff := 0, release := none, awake := [.fwc],
    waking := [], waitQuads := [], trigAt := [], firstAt := [], dpHold := 0x000003E8, wsHold := 0x000007D0, lgHold := 0x000186A0, miscHold := 0x000003E8,
    releaseTmo := 0x000F4240, cause := 1, warmCnt := 0, bootStep := 1, laneFail := false, joinFail := false,
    identMissing := false, cfgDefaulted := 0, cfgAbsent := 0, laneTmo := 0x00989680, wakeCnt := 0, throttleNs := 0,
    laneAt := 0, joins := [] }

/-- The global group (R335), the local time (R64) and the read path of the window (R12). -/
structure Glob where
  /-- Local time in ns. -/
  time : Nat
  /-- Latest stamp acted on, none before the first (R138). -/
  acted : Option Nat
  /-- Sequence number of the next stamped event (R64). -/
  evSeq : W32
  ready : Bool
  accessErr : Bool
  tbSlip : Bool
  tbLost : Bool
  tbValid : Bool
  /-- Local time is held until the input reaches it (R65). -/
  tbHold : Bool
  errInfo : W32
  stepSrc : BitVec 4
  stepSrcEff : BitVec 4
  step : W32
  stepTime : Nat
  scratch : W32
  /-- Data of the last management or test read. -/
  rdata : W32
  /-- High halves latched by low-half reads, and low halves written and not yet in force (R12). -/
  latch : Tab W32
  lowHold : Tab W32
  /-- Own identity fenced: everything stopped until reset (R266). -/
  fencedSelf : Bool
  deriving DecidableEq, Repr

def Glob.reset : Glob :=
  { time := 0, acted := none, evSeq := 0, ready := false, accessErr := false, tbSlip := false, tbLost := false,
    tbValid := false, tbHold := false, errInfo := 0, stepSrc := 0, stepSrcEff := 0, step := 0, stepTime := 0, scratch := 0, rdata := 0,
    latch := [], lowHold := [], fencedSelf := false }

/-- The interrupt group (R338): details, direct causes, enables, and the level on WL_IRQ. -/
structure Irq where
  enable : W32
  dpErr : W64
  dpRej : W64
  dpFence : W64
  seqHalt : BitVec 9
  seqFault : BitVec 9
  cr : W16
  ghDown : Byte
  mailbox : Bool
  twin : Bool
  pwr : Bool
  fatal : Bool
  pin : Bool
  deriving DecidableEq, Repr

def Irq.reset : Irq :=
  { enable := 0, dpErr := 0, dpRej := 0, dpFence := 0, seqHalt := 0, seqFault := 0, cr := 0, ghDown := 0, mailbox := false,
    twin := false, pwr := false, fatal := false, pin := false }

end Sys2Proof.Machine
end

