-- ==== Sys2Proof/Machine/State.lean ====
section
/-! DEFINITION. The state of the block, its reset, and the reasons a command can stop. -/

namespace Sys2Proof.Machine

open Sys2Proof

/-- Stops of the model: there are none, since every command of the part has an effect or is ignored (R8, R9, R327). -/
inductive Fault where
  deriving DecidableEq, Repr

/-- Commands without a meaning. -/
inductive Refusal where
  /-- An arm not modelled, by its mnemonic. Raised by exec. Safe. -/
  | notModelled (mnemonic : String)
  deriving DecidableEq, Repr

/-- The part but for its queue, its Larder RAM as the test port sees it, and its fuses. Tables list what differs from the reset
value of an entry. -/
structure Part where
  glob : Glob
  irq : Irq
  larder : Larder
  /-- Drain ports 0 to 63. -/
  dps : Tab Dp
  /-- NoC ports 0 to 9. -/
  nocs : Tab NocPort
  /-- Waystations 0 to 7. -/
  wss : Tab Ws
  /-- Sequencers 0 to 8. -/
  seqs : Tab Seq
  /-- Tether contexts 0 to 63 that are open, and the twin bank in service. -/
  ctxs : Tab Ctx
  twinCtxs : Tab Ctx
  /-- WL_WS_TETHER_STATUSc and CHUNKSc with the HOP_WS they stand in (R343). -/
  tetherRegs : Tab (Nat × W32 × W32)
  ssu : Ssu
  gh : Gh
  courier : Courier
  /-- Groups K0 holds, by group number. -/
  groups : Tab Group
  twin : Twin
  mb : Mb
  gb : Gb
  pwr : Pwr
  /-- Fuse values as last sensed (R328). -/
  sensed : BitVec 2048
  /-- CONTROL messages that the command in hand has made and not yet sent; none between commands. -/
  ctlOut : List CtlMsg
  /-- What the part has sent, newest first. -/
  out : List Emit
  /-- The model's own counters: next number of a job, request or buffer; next free value. -/
  nextId : Nat
  freeCtr : Nat
  deriving DecidableEq, Repr

/-- The part right after the power-on reset (R319), `sensed` being the fuses as sensed. -/
def Part.reset (sensed : BitVec 2048) : Part :=
  { glob := .reset, irq := .reset, larder := .reset, dps := [], nocs := [], wss := [], seqs := [], ctxs := [], twinCtxs := [],
    tetherRegs := [], ssu := .reset, gh := .reset, courier := .reset, groups := [], twin := .reset, mb := .reset, gb := .reset,
    pwr := .reset, sensed := sensed, ctlOut := [], out := [], nextId := 1, freeCtr := 0 }

/-- The state of the block. -/
structure State where
  /-- Commands that wait, first in, first out. -/
  pending : List Instr
  part : Part
  /-- The Larder's RAM as the test port reaches it (R27, R327): (byte address, byte), strictly rising, no zero byte listed. -/
  larderRam : List Host.Cell
  /-- Fuses (R328): a blown one is 1. -/
  fuses : BitVec 2048
  deriving DecidableEq, Repr

/-- The machine right after the power-on reset (R319). -/
def State.reset : State := { pending := [], part := .reset 0, larderRam := [], fuses := 0 }

end Sys2Proof.Machine
end

