-- ==== Sys2Proof/Machine/Ops.lean ====
section
/-! DEFINITION. The named operations over the state: one reader and one changer per unit, stamps (R64, R138), interrupts
(R338, R339), refused accesses (R337), the Guestbook and notes (R291, R296, R310), wake triggers (R313, R317), Larder buffers
(R27 to R31), NoC requests (R50 to R52), and the Larder's RAM (R27). -/

namespace Sys2Proof.Machine

/-- What a command answers. -/
abbrev Result := Host.Outcome State Fault Refusal

/-- A command that works on the part alone: queue, Larder RAM and fuses stand. -/
def State.run (s : State) (f : Part → Part) : Result := .next { s with part := f s.part }

/-- A command that may reset the part: every domain but AON is cleared by a reset (R319), the Larder with them. A reset has happened where the
start-up begins anew. -/
def State.runReset (s : State) (f : Part → Part) : Result :=
  let t := f s.part
  .next { s with part := t, larderRam := if t.pwr.bootStep = 1 ∧ s.part.pwr.bootStep ≠ 1 then [] else s.larderRam }

/-! ### Readers and changers -/

def Part.onGlob (s : Part) (f : Glob → Glob) : Part := { s with glob := f s.glob }
def Part.onIrq (s : Part) (f : Irq → Irq) : Part := { s with irq := f s.irq }
def Part.onLarder (s : Part) (f : Larder → Larder) : Part := { s with larder := f s.larder }
def Part.onSsu (s : Part) (f : Ssu → Ssu) : Part := { s with ssu := f s.ssu }
def Part.onGh (s : Part) (f : Gh → Gh) : Part := { s with gh := f s.gh }
def Part.onCr (s : Part) (f : Courier → Courier) : Part := { s with courier := f s.courier }
def Part.onTwin (s : Part) (f : Twin → Twin) : Part := { s with twin := f s.twin }
def Part.onMb (s : Part) (f : Mb → Mb) : Part := { s with mb := f s.mb }
def Part.onGb (s : Part) (f : Gb → Gb) : Part := { s with gb := f s.gb }
def Part.onPwr (s : Part) (f : Pwr → Pwr) : Part := { s with pwr := f s.pwr }

def Part.dp (s : Part) (n : Nat) : Dp := tabGet s.dps n .reset
def Part.onDp (s : Part) (n : Nat) (f : Dp → Dp) : Part := { s with dps := tabMod s.dps n .reset f }
def Part.noc (s : Part) (n : Nat) : NocPort := tabGet s.nocs n .reset
def Part.onNoc (s : Part) (n : Nat) (f : NocPort → NocPort) : Part := { s with nocs := tabMod s.nocs n .reset f }
def Part.ws (s : Part) (n : Nat) : Ws := tabGet s.wss n .reset
def Part.onWs (s : Part) (n : Nat) (f : Ws → Ws) : Part := { s with wss := tabMod s.wss n .reset f }
def Part.seq (s : Part) (n : Nat) : Seq := tabGet s.seqs n .reset
def Part.onSeq (s : Part) (n : Nat) (f : Seq → Seq) : Part := { s with seqs := tabMod s.seqs n .reset f }
def Part.lg (s : Part) (n : Nat) : LaneGroup := tabGet s.gh.lgs n .reset
def Part.onLg (s : Part) (n : Nat) (f : LaneGroup → LaneGroup) : Part :=
  s.onGh fun g => { g with lgs := tabMod g.lgs n .reset f }
def Part.env (s : Part) (n : Nat) : Env := tabGet s.ssu.envs n .reset
def Part.onEnv (s : Part) (n : Nat) (f : Env → Env) : Part :=
  s.onSsu fun u => { u with envs := tabMod u.envs n .reset f }
/-- A request on stream n's Envelope (R118): to the own one, and to a failed twin's of that number where the survivor holds one (R130, log entry 32). -/
def Part.askEnv (s : Part) (n : Nat) (f : Env → Env) : Part :=
  (s.onEnv n f).onSsu fun u => { u with twinEnvs := u.twinEnvs.map fun e => if e.1 = n then (e.1, f e.2) else e }
/-- The active copy of a stream entry, which descriptors and transfers take (R96, R118). -/
def Part.stream (s : Part) (n : Nat) : StreamEntry := tabGet s.ssu.streams n .reset
def Part.lodge (s : Part) (n : Nat) : Lodge := tabGet s.ssu.lodges n .reset
def Part.onLodge (s : Part) (n : Nat) (f : Lodge → Lodge) : Part :=
  s.onSsu fun u => { u with lodges := tabMod u.lodges n .reset f }
def Part.crg (s : Part) (n : Nat) : CrGroup := tabGet s.courier.groups n .reset
def Part.onCrg (s : Part) (n : Nat) (f : CrGroup → CrGroup) : Part :=
  s.onCr fun c => { c with groups := tabMod c.groups n .reset f }

def Part.emit (s : Part) (e : Emit) : Part := { s with out := e :: s.out }

/-- Fold a change over a list. -/
def Part.each {α : Type} (s : Part) (l : List α) (f : Part → α → Part) : Part := l.foldl f s

/-! ### Stamps (R64, R138) -/

/-- The stamp of an act: local time, never below a stamp already given (R64). -/
def Part.now (s : Part) : Nat := max s.glob.time (s.glob.acted.getD 0)

/-- The stamp of a step mark (R138): the time of the act that recognises it, or one more than the latest stamp acted on. -/
def Part.markStamp (s : Part) : Nat :=
  match s.glob.acted with
  | none => s.glob.time
  | some t => max s.glob.time (t + 1)

/-- Record that an event was acted on. -/
def Part.touch (s : Part) : Part :=
  s.onGlob fun g => { g with acted := some s.now, evSeq := g.evSeq + 1 }

/-- A command has been carried out: its event is stamped and numbered (R64). -/
def Part.finish (s : Part) : Part := s.touch

/-- A window [start, start + length) has ended (R137): an event at its end falls after it. -/
def Part.ended (s : Part) (start len : Nat) : Bool := decide (start + len ≤ s.now)

/-- The window is shut (R333): until WL_PWR_BOOT.STEP reads 2, every write is ignored. -/
def Part.shut (s : Part) : Bool := decide (s.pwr.bootStep < 2)

/-- A register write that the window lets through. -/
def Part.whenOpen (s : Part) (f : Part → Part) : Part := if s.shut then s else f s

/-! ### Interrupts (R338) -/

def bitIf (b : Bool) (i : Nat) : Nat := if b then 2 ^ i else 0

/-- WL_IRQ_STATUS: direct causes and summaries (R338). -/
def Part.irqStatus (s : Part) : W32 :=
  BitVec.ofNat 32 (bitIf (decide (s.irq.dpErr ≠ 0#64)) 0 + bitIf (decide (s.irq.dpRej ≠ 0#64)) 1
    + bitIf (decide (s.irq.dpFence ≠ 0#64)) 2 + bitIf (s.larder.partReject || s.larder.ueSeen) 3
    + bitIf (s.ssu.ledgerErr || s.ssu.lodgeTmo) 4 + bitIf s.ssu.misfit 5 + bitIf (decide (s.irq.seqHalt ≠ 0#9)) 6
    + bitIf (decide (s.irq.seqFault ≠ 0#9)) 7 + bitIf (decide (s.irq.cr ≠ 0#16)) 8 + bitIf s.irq.mailbox 9
    + bitIf (decide (s.irq.ghDown ≠ 0#8)) 10 + bitIf s.irq.twin 11 + bitIf s.irq.pwr 12 + bitIf s.irq.fatal 13
    + bitIf (s.glob.tbSlip || s.glob.tbLost) 14 + bitIf s.glob.accessErr 15)

/-- WL_IRQ_PENDING (R338). -/
def Part.irqPending (s : Part) : W32 := s.irqStatus &&& s.irq.enable

/-- A refused access (R337): the record keeps the first error while ACCESS_ERR is 0. -/
def Part.accessErr (s : Part) (cause off : Nat) (wr : Bool) : Part :=
  s.onGlob fun g =>
    { g with
      accessErr := true
      errInfo := if g.accessErr then g.errInfo
        else BitVec.ofNat 32 (off % 2 ^ 20 + b2n wr * 2 ^ 20 + cause * 2 ^ 21) }

/-! ### Wake triggers (R313, R314, R317) -/

/-- Quads that may be awake at an effective step (R316). -/
def quadCap : Nat → Nat
  | 0 => 16 | 1 => 12 | 2 => 10 | 3 => 8 | 4 => 6 | 5 => 4 | 6 => 2
  | _ => 1

def isQuad : Dom → Bool
  | .quad _ => true
  | _ => false

/-- Quads awake or waking. -/
def Pwr.quadsOn (p : Pwr) : Nat := (p.awake.filter isQuad).length + (p.waking.filter isQuad).length

/-- A number for each domain. -/
def Dom.num : Dom → Nat
  | .fwc => 0
  | .quad q => 1 + q.val
  | .ws w => 17 + w.val
  | .gh => 25
  | .lane g => 26 + g.val
  | .larder h => 34 + h.val
  | .ssu => 36
  | .courier => 37

/-- The hold time of a domain (R313, R330); the firmware complex and the Courier have none. -/
def Dom.hold (p : Pwr) : Dom → Option W32
  | .quad _ => some p.dpHold
  | .ws _ => some p.wsHold
  | .lane _ => some p.lgHold
  | .gh | .larder _ | .ssu => some p.miscHold
  | .fwc | .courier => none

/-- Quad a waits ahead of quad b (R317): the one triggered first, or the lower number. -/
def Pwr.ahead (p : Pwr) (a b : Nat) : Bool :=
  let t (q : Nat) : Nat := (tabFind p.firstAt q).getD 0
  decide (t a < t b) || (decide (t a = t b) && decide (a < b))

/-- A quad takes its place among those that wait (R317). -/
def Pwr.queueQuad (p : Pwr) : List Nat → Nat → List Nat
  | [], q => [q]
  | x :: xs, q => if x = q then x :: xs else if p.ahead q x then q :: x :: xs else x :: p.queueQuad xs q

/-- A wake trigger at `t`: a gated domain starts to wake; a quad beyond the cap waits for admission (R317). The hold time of an idle domain
starts anew (R314). -/
def Pwr.wake (p : Pwr) (t : Nat) (d : Dom) : Pwr :=
  let p := if (d.hold p).isSome then { p with trigAt := tabInsert p.trigAt d.num t } else p
  if p.awake.contains d || p.waking.contains d then p
  else match d with
    | .quad q =>
      if p.waitQuads.contains q.val then p
      else
        let p := { p with firstAt := tabInsert p.firstAt q.val t }
        if p.quadsOn < quadCap p.stepEff then { p with waking := p.waking ++ [d] } else { p with waitQuads := p.queueQuad p.waitQuads q.val }
    | _ => { p with waking := p.waking ++ [d] }

def Part.wake (s : Part) (d : Dom) : Part := s.onPwr fun p => p.wake s.now d
/-- A domain has done work: its hold time counts from here (R313). -/
def Part.worked (s : Part) (d : Dom) : Part := s.onPwr fun p => { p with trigAt := tabInsert p.trigAt d.num s.now }

/-- The quad of a drain port (R15). -/
def quadOf (dp : Nat) : Dom := .quad (Fin.ofNat 16 (dp / 4))
def wsDom (w : Nat) : Dom := .ws (Fin.ofNat 8 w)
/-- The domain of a sequencer (R226, R313). -/
def seqDom (q : Nat) : Dom := if q < 8 then wsDom q else .gh
def Part.dpAwake (s : Part) (dp : Nat) : Bool := s.pwr.awake.contains (quadOf dp)

/-! ### The mirror (R18, R57) -/

/-- One word to the twin (R57). The words that a retransmission can ask for are those of half the number space. -/
def Part.twinSend (s : Part) (it : MirrorItem) : Part :=
  (s.emit (.twinWord s.twin.txSeq it)).onTwin fun t =>
    { t with txWords := ((t.txSeq, it) :: t.txWords).take 32768, txSeq := t.txSeq + 1, lastTx := s.now }

/-- A change goes to the twin (R18); nothing while mirroring is off or the pair is split or lost (R264, R269). -/
def Part.mirror (s : Part) (it : MirrorItem) : Part :=
  if s.twin.mirrorEn && (decide (s.twin.st = 0) || decide (s.twin.st = 5)) then s.twinSend it else s

/-- The credit counters go to the twin (R18, R276). -/
def Part.mirrorCredits (s : Part) : Part :=
  s.mirror (.creditCounters s.larder.active.floors s.larder.active.ceils s.larder.active.owners s.larder.occ)

/-! ### Larder buffers (R22, R27 to R31) -/

def sumN (l : List Nat) : Nat := l.foldl (· + ·) 0

/-- Pool credits not granted (R29, R340). -/
def Larder.poolFree (l : Larder) : Nat :=
  (49152 - sumN l.active.floors)
    - sumN ((List.range 16).map fun p => l.occ.getD p 0 - l.active.floors.getD p 0)

/-- The bank of a 64 B line (R27): 16 consecutive lines stripe over 16 consecutive banks, bank 63 wrapping to bank 0. -/
def lineBank (line : Nat) : Nat := line % 64
/-- The half that a bank belongs to (R19): banks 0 to 31 are half 0, banks 32 to 63 half 1. -/
def bankHalf (bank : Nat) : Fin 2 := if bank % 64 < 32 then 0 else 1
/-- The lines of a credit (R27). -/
def creditLines (c : Nat) : List Nat := (List.range 16).map fun i => 16 * c + i
/-- The credits of a buffer in order. -/
def LBuf.creditList (b : LBuf) : List Nat := (b.runs.map fun r => (List.range r.2).map fun i => r.1 + i).flatten

/-- Take `n` credits from the runs of free ones, the lowest first: (taken, left). R27 says how a credit lies in the banks and not
which credits a buffer gets (DESIGN CHOICE, log entry 4). -/
def takeRuns : Nat → List (Nat × Nat) → List (Nat × Nat) × List (Nat × Nat)
  | _, [] => ([], [])
  | n, r :: rs =>
    if n = 0 then ([], r :: rs)
    else if n < r.2 then ([(r.1, n)], (r.1 + n, r.2 - n) :: rs)
    else let t := takeRuns (n - r.2) rs; (r :: t.1, t.2)

/-- Put a run of credits back at its place. -/
def putRun : List (Nat × Nat) → Nat × Nat → List (Nat × Nat)
  | [], x => [x]
  | r :: rs, x =>
    if x.1 + x.2 < r.1 then x :: r :: rs
    else if x.1 + x.2 = r.1 then (x.1, x.2 + r.2) :: rs
    else if r.1 + r.2 = x.1 then
      match rs with
      | q :: qs => if x.1 + x.2 = q.1 then (r.1, r.2 + x.2 + q.2) :: qs else (r.1, r.2 + x.2) :: rs
      | [] => [(r.1, r.2 + x.2)]
    else r :: putRun rs x

/-- Make a request; it waits in the queue (R30). Any request wakes both halves of the Larder (R313). -/
def Part.larderReq (s : Part) (requester consumer credits : Nat) : Nat × Part :=
  let id := s.nextId
  let p := s.larder.active.owners.getD consumer 0
  let s1 : Part := { s with nextId := id + 1 }
  let s2 := s1.onLarder fun l =>
    { l with queue := l.queue ++ [{ id := id, requester := requester, consumer := consumer, part := p, credits := credits, starved := false, made := s.now }] }
  (id, (s2.wake (.larder 0)).wake (.larder 1))

/-- A buffer has been granted. -/
def Part.granted (s : Part) (id : Nat) : Bool := (tabFind s.larder.bufs id).isSome
def Part.grantedOpt (s : Part) (id : Option Nat) : Bool :=
  match id with
  | none => true
  | some i => s.granted i

/-- An access to a granted buffer wakes the halves that hold its credits (R313). -/
def Part.larderUse (s : Part) (id : Option Nat) : Part :=
  match id.bind (tabFind s.larder.bufs) with
  | none => s
  | some b =>
    s.each [0, 1] fun s h => if b.creditList.any fun c => decide (bankHalf (lineBank (16 * c)) = h) then s.wake (.larder h) else s

/-- Release a buffer, or withdraw a request that waits (R22, R122). -/
def Larder.release (l : Larder) (id : Nat) : Larder :=
  match tabFind l.bufs id with
  | some b =>
    { l with
      bufs := tabErase l.bufs id
      free := b.runs.foldl putRun l.free
      occ := l.occ.set b.part (l.occ.getD b.part 0 - b.credits) }
  | none => { l with queue := l.queue.filter fun r => r.id ≠ id }

/-- Release a buffer, or withdraw its request; a change of the credit counters is mirrored (R18). -/
def Part.release (s : Part) (id : Option Nat) : Part :=
  match id with
  | some i =>
    let t := s.onLarder fun l => l.release i
    if t.larder.occ = s.larder.occ then t else t.mirrorCredits
  | none => s

/-- Charge a buffer at its grant (R28): occupancy, peak, table, and its credits. -/
def Larder.grant (l : Larder) (r : LReq) : Larder :=
  let occ := l.occ.getD r.part 0 + r.credits
  let t := takeRuns r.credits l.free
  { l with
    queue := l.queue.filter (fun x => x.id ≠ r.id)
    free := t.2
    bufs := tabInsert l.bufs r.id ⟨r.credits, t.1, r.part, r.consumer⟩
    occ := l.occ.set r.part occ
    peak := l.peak.set r.part (max (l.peak.getD r.part 0) occ) }

/-- The oldest waiting request of a partition (R30). -/
def Larder.head (l : Larder) (p : Nat) : Option LReq := l.queue.find? fun r => r.part = p
/-- Covered wholly by the floor (R30 step 2). After a new set whose floors and the pool credits already held sum to more than 49,152,
floor requests are granted all the same, so that occupancy can pass 49,152 for a time: R29 promises the floor "at any time", R32
never revokes a buffer, and no rule settles the two (DESIGN CHOICE, log entry 27). The buffer then has fewer credits of its own
than it is charged. -/
def Larder.byFloor (l : Larder) (r : LReq) : Bool := decide (l.occ.getD r.part 0 + r.credits ≤ l.active.floors.getD r.part 0)
/-- Within the ceiling (R29). -/
def Larder.underCeil (l : Larder) (r : LReq) : Bool := decide (l.occ.getD r.part 0 + r.credits ≤ l.active.ceils.getD r.part 0)
/-- The part beyond the floor that the pool must give (R29). -/
def Larder.poolPart (l : Larder) (r : LReq) : Nat :=
  (l.occ.getD r.part 0 + r.credits - l.active.floors.getD r.part 0) - (l.occ.getD r.part 0 - l.active.floors.getD r.part 0)
def Larder.byPool (l : Larder) (r : LReq) : Bool := l.underCeil r && decide (l.poolPart r ≤ l.poolFree)

/-- Heads of the partitions in an order. -/
def Larder.heads (l : Larder) (ps : List Nat) : List LReq := ps.filterMap l.head

/-- One request starves before another (R30): the older one, or of two equally old ones the one of the lower partition. Requests are
equally old where their stamps are equal (DEDUCED, log entry 45). -/
def LReq.before (a b : LReq) : Bool := decide (a.made < b.made) || (decide (a.made = b.made) && decide (a.part < b.part))

/-- One grant of R30: floors first, then the starvation guard, then the pool in round robin after the partition last granted. -/
def Larder.grantOne (l : Larder) : Option Larder :=
  match (l.heads (List.range 16)).find? l.byFloor with
  | some r => some (l.grant r)
  | none =>
    match ((l.heads (List.range 16)).filter fun r => r.starved && l.underCeil r) with
    | r :: rs =>
      let o := rs.foldl (fun a b => if b.before a then b else a) r
      if l.byPool o then some { l.grant o with rrLast := o.part } else none
    | [] =>
      match (l.heads ((List.range 16).map fun i => (l.rrLast + 1 + i) % 16)).find? l.byPool with
      | some r => some { l.grant r with rrLast := r.part }
      | none => none

def Larder.grantAll : Nat → Larder → Larder
  | 0, l => l
  | n + 1, l =>
    match l.grantOne with
    | some l' => Larder.grantAll n l'
    | none => l

/-! ### NoC requests (R50 to R52) -/

/-- Length of the first piece of an access: no request crosses a 64 KiB boundary (R50). -/
def pieceLen (off len : Nat) : Nat := min len (65536 - off % 65536)
def pieces : Nat → Nat → Nat → List (Nat × Nat)
  | 0, _, _ => []
  | n + 1, off, len => if len = 0 then [] else (off, pieceLen off len) :: pieces n (off + pieceLen off len) (len - pieceLen off len)

/-- The lowest tag not outstanding (log entry 9). -/
def NocPort.freeTag (p : NocPort) : Option Nat :=
  (List.range 256).find? fun t => (tabFind p.openReqs t).isNone

/-- A write of anything but whole 64 B units on 64 B boundaries (R50). -/
def NocReq.partial? (r : NocReq) : Bool := r.wr && (decide (r.off % 64 ≠ 0) || decide (r.len % 64 ≠ 0))
/-- The lines a request touches: first byte and length. -/
def NocReq.lines (r : NocReq) : Nat × Nat := (r.off / 64 * 64, (r.off + r.len + 63) / 64 * 64 - r.off / 64 * 64)
/-- What a request serves in the end: the lines of a write serve what the write serves. -/
def NocUse.inner : NocUse → NocUse
  | .merge _ _ u => u
  | u => u
/-- The same request, serving nothing any more. -/
def NocUse.drop : NocUse → NocUse
  | .merge off data _ => .merge off data .none
  | _ => .none
/-- What goes out for a request (R50, DEDUCED, log entry 10): a write that is not whole 64 B units begins as a read of its lines. -/
def NocReq.ready (r : NocReq) : NocReq :=
  if r.partial? then ⟨false, r.lines.1, r.lines.2, [], .merge r.off r.data r.use, r.bad.map fun _ => (r.lines.2, 0)⟩ else r

/-- What a request spends at its port as it goes out under tag `t`. -/
def NocPort.spend (p : NocPort) (t : Nat) (r0 : NocReq) (rest : List NocReq) (beats len : Nat) : NocPort :=
  { p with
    reqCr := p.reqCr - 1
    wrCr := p.wrCr - beats
    waiting := rest
    merging := r0.partial?
    openReqs := tabInsert p.openReqs t (r0.ready, len) }

/-- The next request goes out, where a tag and credits are left (R50, R51). While the lines of a write are being read, nothing later goes
out. -/
def Part.nocOne (s : Part) (port : Nat) : Option Part :=
  let p := s.noc port
  match p.waiting, p.freeTag with
  | r0 :: rest, some t =>
    let r := r0.ready
    let beats := if r.wr then (r.len + 1023) / 1024 else 0
    let off := r.off + (if r.wr then 0 else r.data.length)
    let piece := pieceLen off (r.len - r.data.length)
    if 1 ≤ p.reqCr ∧ beats ≤ p.wrCr ∧ p.merging = false then
      some ((s.onNoc port fun p => p.spend t r0 rest beats (if r.wr then 0 else r.data.length + piece)).emit
        (if r.wr then Emit.nocWrite port t off r.data else Emit.nocRead port t off piece))
    else none
  | _, _ => none

/-- Send waiting requests while tags and credits last. -/
def Part.nocPump (port : Nat) : Nat → Part → Part
  | 0, s => s
  | n + 1, s =>
    match s.nocOne port with
    | some s' => Part.nocPump port n s'
    | none => s

/-- Ask for a read. -/
def Part.nocRead (s : Part) (port off len : Nat) (use : NocUse) : Part :=
  let s := s.onNoc port fun p => { p with waiting := p.waiting ++ [⟨false, off, len, [], use, []⟩] }
  s.nocPump port (s.noc port).waiting.length

/-- The writes of a piece of memory, in issue order (R51). -/
def Part.nocWrite (s : Part) (port off : Nat) (data : List Byte) (use : NocUse) : Part :=
  let ps := pieces (data.length / 64 + 2) off data.length
  let s := s.onNoc port fun p =>
    { p with waiting := p.waiting ++ ps.map fun (o, l) => ⟨true, o, l, (data.drop (o - off)).take l, use, []⟩ }
  s.nocPump port (s.noc port).waiting.length

/-- Reads that nobody waits for any more: they leave the queue, and what is in flight returns to no one. -/
def Part.dropReads (s : Part) (port : Nat) (mine : NocUse → Bool) : Part :=
  s.onNoc port fun p =>
    { p with
      waiting := p.waiting.filter fun r => r.wr || !mine r.use
      openReqs := p.openReqs.map fun o => if !o.2.1.wr && mine o.2.1.use then (o.1, { o.2.1 with use := .none }, o.2.2) else o }

/-- How many responses a write of these bytes will have. -/
def writePieces (off len : Nat) : Nat := (pieces (len / 64 + 2) off len).length

/-! ### Guestbook and notes -/

/-- A Keeper that executes: up (R301) and not halted by the test port (R327). -/
def Mb.runs (m : Mb) (k : Nat) : Bool := bitOf m.keeperUp k && !bitOf m.halted k

/-- The 32 bytes of an entry (R311). -/
def GuestEntry.bytes (e : GuestEntry) : List Byte :=
  toBytes 8 e.time ++ toBytes 4 e.seq.toNat ++ toBytes 1 e.src ++ toBytes 1 e.level ++ toBytes 2 e.tp.toNat
    ++ ((e.args ++ List.replicate 4 0#32).take 4).flatMap fun a => toBytes 4 a.toNat

/-- Where entry `n` of the Guestbook lies (R310). -/
def Gb.place (g : Gb) (n : Nat) : W64 := g.base + BitVec.ofNat 64 (n % 2 ^ fld g.size 0 5 * 32)

/-- The 16 bytes of a note (R296). -/
def noteBytes (kind : Byte) (src : W16) (arg : W32) (time : Nat) : List Byte :=
  toBytes 8 time ++ [kind, 0] ++ toBytes 2 src.toNat ++ toBytes 4 arg.toNat

/-- Where note `n` lies (R296). -/
def Mb.notePlace (m : Mb) (n : Nat) : W64 := m.noteBase + BitVec.ofNat 64 (n % 2 ^ fld m.noteSize 0 5 * 16)

/-- An entry goes to its place in the ring through Gatehouse NoC port 0, its SEQ field last (R310). `wr` counts the entries that have been given
out; the register shows those whose writes have been answered (Part.gbWr). -/
def Part.ringWrite (s : Part) (e : GuestEntry) : Part :=
  let o := (s.gb.place s.gb.wr.toNat).toNat
  let u := NocUse.guest s.gb.wr
  (((s.nocWrite 8 o (slice e.bytes 0 8) u).nocWrite 8 (o + 12) (slice e.bytes 12 20) u).nocWrite 8 (o + 8) (slice e.bytes 8 4) u).onGb fun g =>
    { g with wr := g.wr + 1 }

/-- The numbers of what a port still writes. -/
def NocPort.writing (p : NocPort) (f : NocUse → Option W32) : List W32 :=
  (p.waiting.map (fun r => r.use.inner) ++ p.openReqs.map fun o => o.2.1.use.inner).filterMap f
/-- Of a free-running count, the part whose writes have all been answered: up to the oldest number still being written. -/
def written (wr : W32) (ns : List W32) : W32 := ns.foldl (fun a n => if (wr - a).toNat < (wr - n).toNat then n else a) wr
/-- WL_GB_WR (R310): an entry counts once it has been written, its SEQ field with it. -/
def Part.gbWr (s : Part) : W32 := written s.gb.wr ((s.noc 8).writing fun u => match u with | .guest n => some n | _ => none)
/-- WL_MB_NOTE_WR (R296): a note counts once it has been written. -/
def Part.noteWr (s : Part) : W32 := written s.mb.noteWr ((s.noc 8).writing fun u => match u with | .note n => some n | _ => none)

/-- K3, or the boot ROM before it, writes an entry (R310): to the ring, or to staging of 128 entries while BASE is 0. -/
def Part.guestWrite (s : Part) (e : GuestEntry) : Part :=
  if s.gb.base = 0#64 then
    s.onGb fun g => if g.staged.length < 128 then { g with staged := g.staged ++ [e] } else { g with stageLost := satAdd g.stageLost 1 }
  else s.ringWrite e

/-- The sequence number of the next stamped event (R64): the commands and the trace events before it. -/
def Part.eventSeq (s : Part) : W32 := s.glob.evSeq + s.gb.recorded

/-- A trace event is stamped and numbered where it happens (R62, R64, R311). -/
def Part.record (s : Part) (src level : Nat) (tp : W16) (args : List W32) : GuestEntry × Part :=
  (⟨src, level, tp, args, s.now, s.eventSeq⟩, s.onGb fun g => { g with recorded := g.recorded + 1 })

/-- Level 0 is logged only when its area's mask bit is set (R310). -/
def Part.logged (s : Part) (level : Nat) (tp : W16) : Bool :=
  decide (level ≠ 0) || bitOf s.gb.mask (tp.toNat / 256)

/-- An entry on its way to the ring (R291, R302): the boot ROM's own, the firmware's before the kernel runs, and all while K3 executes are
written at once; the others wait for K3, the hardware trace points in 256 places. -/
def Part.toK3 (s : Part) (e : GuestEntry) : Part :=
  if s.mb.runs 3 || decide (e.src = 4 ∨ (e.src ≠ 5 ∧ s.mb.st.toNat < 3)) then s.guestWrite e
  else if e.src ≠ 5 || decide ((s.mb.traceq.filter fun q => decide (q.src = 5)).length < 256) then
    s.onMb fun m => { m with traceq := m.traceq ++ [e] }
  else s.onGb fun g => { g with hwqLost := satAdd g.hwqLost 1 }

/-- An entry of the firmware. -/
def Part.guest (s : Part) (src level : Nat) (tp : W16) (args : List W32) : Part :=
  if s.logged level tp then
    let r := s.record src level tp args
    r.2.toK3 r.1
  else s

/-- A hardware trace point (R291, R312): a queue post, which wakes the firmware complex (R313). -/
def Part.trace (s : Part) (level : Nat) (tp : W16) (args : List W32) : Part :=
  (if s.logged level tp then s.wake .fwc else s).guest 5 level tp args

/-- K1 writes a note through Gatehouse NoC port 0 (R296): nothing with the ring disabled; a full ring drops and counts it. `noteWr` counts the notes
that have been given out; the register shows those whose writes have been answered (Part.noteWr). -/
def Part.noteWrite (s : Part) (kind : Byte) (src : W16) (arg : W32) : Part :=
  if s.mb.noteBase = 0#64 then s
  else if (s.mb.noteWr - s.mb.noteRd).toNat = 2 ^ (fld s.mb.noteSize 0 5) then
    s.onMb fun m => { m with noteLost := satAdd m.noteLost 1 }
  else (s.nocWrite 8 (s.mb.notePlace s.mb.noteWr.toNat).toNat (noteBytes kind src arg s.now) (.note s.mb.noteWr)).onMb fun m => { m with noteWr := m.noteWr + 1 }

/-- The end of a mailbox command (R293): response, DONE, BUSY, the interrupt cause. -/
def Part.mbEnd (s : Part) (tag status : Byte) (rargs : List W32) : Part :=
  (s.onMb fun m =>
    { m with
      rspStatus := status
      rspTag := tag
      rspDone := true
      busy := false
      doorbell := none
      run := none
      rargs := rargs ++ List.replicate (8 - rargs.length) 0 }).onIrq fun i => { i with mailbox := true }

/-- A report to K1 (R291), which wakes the firmware complex (R313): its event queue of 1,024 while it is down. -/
def Part.note (s : Part) (kind : Byte) (src : W16) (arg : W32) : Part :=
  let s := s.wake .fwc
  if s.mb.runs 1 then s.noteWrite kind src arg
  else if s.mb.k1q.length < 1024 then
    s.onMb fun m => { m with k1q := m.k1q ++ [(kind, BitVec.ofNat 8 src.toNat, BitVec.ofNat 8 (src.toNat / 256), arg)] }
  else s.onMb fun m => { m with qlostE := BitVec.ofNat 16 (satN 16 m.qlostE.toNat 1) }

/-! ### The Larder's RAM (R27, R327) -/

/-- Strictly rising addresses and no zero byte listed. -/
def Memory.wf : List Host.Cell → Bool
  | [] => true
  | [c] => decide (c.2 ≠ 0#8)
  | c :: d :: t => decide (c.2 ≠ 0#8) && decide (c.1 < d.1) && Memory.wf (d :: t)

/-- Reading one byte; an unlisted byte reads 0 (log entry 3). -/
def Memory.read : List Host.Cell → Nat → Byte
  | [], _ => 0
  | c :: t, a => if a = c.1 then c.2 else if a < c.1 then 0 else Memory.read t a

/-- Writing one byte, keeping the canonical form. -/
def Memory.write : List Host.Cell → Nat → Byte → List Host.Cell
  | [], a, b => if b = 0#8 then [] else [(a, b)]
  | c :: t, a, b =>
    if a < c.1 then (if b = 0#8 then c :: t else (a, b) :: c :: t)
    else if a = c.1 then (if b = 0#8 then t else (a, b) :: t)
    else c :: Memory.write t a b

/-- Writing consecutive bytes. -/
def Memory.writeAll (m : List Host.Cell) (a : Nat) : List Byte → List Host.Cell
  | [] => m
  | b :: bs => Memory.writeAll (Memory.write m a b) (a + 1) bs

/-! ### Larder errors (R284) -/

/-- Count what a Larder read met. -/
def Part.larderErr (s : Part) (e : LarderErr) : Part :=
  match e with
  | .clean => s
  | .corrected => s.onLarder fun l => { l with ceCnt := satAdd l.ceCnt 1 }
  | .uncorrectable line =>
    (s.onLarder fun l =>
      { l with
        ueCnt := satAdd l.ueCnt 1
        ueSeen := true
        ueAddr := BitVec.ofNat 32 (line.toNat + lineBank line.toNat * 2 ^ 20) }).trace 3 0x0702
      [BitVec.ofNat 32 (lineBank line.toNat), BitVec.ofNat 32 (line.toNat / 16)]

end Sys2Proof.Machine
end

