-- ==== Sys2Proof/Machine/Operands.lean ====
section
/-! DEFINITION. The operand forms: drain descriptors (R140), instruction words (R232, R234), transfer blocks (R244), Tether
blocks (R166, R249), flit, message and chunk headers (R169, R197, R200), addresses (R144, R193). -/

namespace Sys2Proof.Machine

/-! ### Drain descriptors (R140) -/

def Desc.chain (d : BitVec 128) : Nat := fld d 0 4
def Desc.stagewise (d : BitVec 128) : Bool := bitOf d 4
def Desc.tfmt (d : BitVec 128) : Nat := fld d 5 5
def Desc.ifmtBf (d : BitVec 128) : Bool := bitOf d 10
def Desc.wfmtBf (d : BitVec 128) : Bool := bitOf d 11
def Desc.stream (d : BitVec 128) : Nat := fld d 12 12
def Desc.slot (d : BitVec 128) : Nat := fld d 24 2
def Desc.ctx (d : BitVec 128) : Nat := fld d 26 2
def Desc.dest (d : BitVec 128) : Nat := fld d 28 2
/-- A, the rows drained: ROWS + 1. -/
def Desc.rows (d : BitVec 128) : Nat := fld d 30 7 + 1
def Desc.tile (d : BitVec 128) : Nat := fld d 37 12
def Desc.rowblk (d : BitVec 128) : Nat := fld d 49 16
def Desc.pair (d : BitVec 128) : Bool := bitOf d 65
def Desc.addBias (d : BitVec 128) : Bool := bitOf d 66
def Desc.addRes (d : BitVec 128) : Bool := bitOf d 67
def Desc.lodge (d : BitVec 128) : Nat := fld d 68 8
def Desc.calidx (d : BitVec 128) : Nat := fld d 76 16
def Desc.tag (d : BitVec 128) : Nat := fld d 92 16
def Desc.event (d : BitVec 128) : Nat := fld d 108 8
def Desc.evtEn (d : BitVec 128) : Bool := bitOf d 116
def Desc.reserved (d : BitVec 128) : Nat := fld d 117 11

/-- Stages a chain names (R146): bias, residual, smoothing, rotation and sign. -/
def chainBias (c : Nat) : Bool := c == 2 || c == 8
def chainRes (c : Nat) : Bool := c == 3
def chainRot (c : Nat) : Bool := c == 4 || c == 5 || c == 7 || c == 8 || c == 9 || c == 10 || c == 11
def chainSmooth (c : Nat) (e : StreamEntry) : Bool := c == 5 || (c == 10 && e.smoothEn)
def chainLedgerOnly (c : Nat) : Bool := c == 4 || c == 5 || c == 7 || c == 8 || c == 10 || c == 11
/-- Bias and residual as the descriptor runs them: named or added (R152). -/
def Desc.hasBias (d : BitVec 128) : Bool := chainBias (Desc.chain d) || Desc.addBias d
def Desc.hasRes (d : BitVec 128) : Bool := chainRes (Desc.chain d) || Desc.addRes d
/-- The descriptor rotates (R147). -/
def Desc.rotates (d : BitVec 128) (e : StreamEntry) : Bool := chainRot (Desc.chain d) && decide (e.rotBlock ≠ 0)

/-- Operand streams of a descriptor (R152); PAIR counts on the lead. -/
def Desc.streams (d : BitVec 128) (e : StreamEntry) : Nat :=
  b2n (chainBias (Desc.chain d)) + b2n (chainRes (Desc.chain d)) + b2n (chainSmooth (Desc.chain d) e) + b2n (Desc.addBias d)
    + b2n (Desc.addRes d) + b2n (Desc.pair d && decide (Desc.tile d % 2 = 0))

/-! ### Instruction words (R232) -/

def IW.opc (w : W64) : Nat := fld w 0 6
def IW.ga (w : W64) : Nat := fld w 6 4
def IW.gb (w : W64) : Nat := fld w 10 4
def IW.gc (w : W64) : Nat := fld w 14 4
/-- IMM as a signed number. -/
def IW.imm (w : W64) : Int := (BitVec.ofNat 32 (fld w 32 32)).toInt
/-- Low `n` bits of a field that must hold nothing from bit `lo` on. -/
def IW.clear (w : W64) (lo len : Nat) : Bool := decide (fld w lo len = 0)

/-! ### Fabric addresses (R193) -/

def addrId (a : W64) : FabId := BitVec.ofNat 17 (fld a 47 17)
def addrOff (a : W64) : Nat := fld a 0 47
def idDie (i : FabId) : Nat := fld i 0 2
/-- Route-table index: side and package. -/
def idRoute (i : FabId) : Nat := fld i 2 15

/-! ### Transfer blocks (R244) -/

def Xb.wfmt (b : BitVec 512) : Nat := fld b 0 5
def Xb.lfmt (b : BitVec 512) : Nat := fld b 5 5
def Xb.sfmt (b : BitVec 512) : Nat := fld b 10 5
def Xb.stream (b : BitVec 512) : Nat := fld b 15 12
def Xb.arr (b : BitVec 512) : Bool := bitOf b 27
def Xb.xfer (b : BitVec 512) : Nat := fld b 28 8
def Xb.lgmask (b : BitVec 512) : Nat := fld b 36 8
def Xb.event (b : BitVec 512) : Nat := fld b 44 8
def Xb.evtEn (b : BitVec 512) : Bool := bitOf b 52
def Xb.remote (b : BitVec 512) : W64 := BitVec.ofNat 64 (fld b 64 64)
def Xb.local' (b : BitVec 512) : Nat := fld b 128 47
def Xb.rledger (b : BitVec 512) : Nat := fld b 192 47
def Xb.nrows (b : BitVec 512) : Nat := fld b 256 24
def Xb.nct (b : BitVec 512) : Nat := fld b 280 16
def Xb.spitch (b : BitVec 512) : Nat := fld b 320 24
def Xb.dpitch (b : BitVec 512) : Nat := fld b 344 24
def Xb.dpn (b : BitVec 512) : Nat := fld b 384 6
def Xb.opsTag (b : BitVec 512) : Nat := fld b 400 16
def Xb.tidx0 (b : BitVec 512) : Nat := fld b 416 12
def Xb.calidx (b : BitVec 512) : Nat := fld b 432 16
/-- A reserved field is not 0. -/
def Xb.reservedSet (b : BitVec 512) : Bool :=
  decide (fld b 53 11 ≠ 0) || decide (fld b 175 17 ≠ 0) || decide (fld b 239 17 ≠ 0) || decide (fld b 296 24 ≠ 0)
    || decide (fld b 368 16 ≠ 0) || decide (fld b 390 10 ≠ 0) || decide (fld b 428 4 ≠ 0) || decide (fld b 448 64 ≠ 0)
/-- Messages of the region (R246, R247). -/
def Xb.messages (b : BitVec 512) : Nat := (Xb.nrows b + 127) / 128 * Xb.nct b
/-- Rows of tile row b (R246). -/
def Xb.tileRows (b : BitVec 512) (tb : Nat) : Nat := min 128 (Xb.nrows b - 128 * tb)

/-! ### Message headers (R200) -/

/-- The header of a message of a region at tile (tb, t), landing at `base` + … (R246). LEDGER is given for a narrow landing, LFMT being
a Ledger-scaled code, and 0 otherwise (R200). CTILE has 12 bits and NCT 16: a column tile of 4,096 or more goes out modulo
4,096, which the spec leaves open (DESIGN CHOICE, log entry 50). -/
def mkHdr (b : BitVec 512) (wfmt lfmt base tb t rows utiles : Nat) (bodyLen : Nat) : BitVec 256 :=
  let e := (Fmt.ofCode lfmt).map Fmt.width |>.getD 0
  let data := base + 128 * tb * Xb.dpitch b * 64 + t * 128 * e / 8
  let ledger := if !((Fmt.ofCode (Xb.lfmt b)).map Fmt.isLedger |>.getD false) then 0 else Xb.rledger b + (tb * Xb.nct b + t) * 1024
  BitVec.ofNat 256 (wfmt + lfmt * 2 ^ 5 + Xb.stream b * 2 ^ 10 + (rows - 1) * 2 ^ 24 + bodyLen * 2 ^ 32
    + (data % 2 ^ 47) * 2 ^ 64 + (ledger % 2 ^ 47) * 2 ^ 112 + Xb.dpitch b * 2 ^ 160 + Xb.dpn b * 2 ^ 184
    + Xb.opsTag b * 2 ^ 192 + ((Xb.tidx0 b + tb * Xb.nct b + t) % 2 ^ 12) * 2 ^ 208 + Xb.xfer b * 2 ^ 220
    + utiles * 2 ^ 228 + (if utiles = 0 then t % 2 ^ 12 else 0) * 2 ^ 240)

def Mh.wfmt (h : BitVec 256) : Nat := fld h 0 5
def Mh.lfmt (h : BitVec 256) : Nat := fld h 5 5
def Mh.stream (h : BitVec 256) : Nat := fld h 10 12
def Mh.vreq (h : BitVec 256) : Bool := bitOf h 22
def Mh.rows (h : BitVec 256) : Nat := fld h 24 7 + 1
def Mh.body (h : BitVec 256) : Nat := fld h 32 32
def Mh.data (h : BitVec 256) : Nat := fld h 64 47
def Mh.ledger (h : BitVec 256) : Nat := fld h 112 47
def Mh.pitch (h : BitVec 256) : Nat := fld h 160 24
def Mh.dpn (h : BitVec 256) : Nat := fld h 184 6
def Mh.opsTag (h : BitVec 256) : Nat := fld h 192 16
def Mh.tidx (h : BitVec 256) : Nat := fld h 208 12
def Mh.xfer (h : BitVec 256) : Nat := fld h 220 8
def Mh.utiles (h : BitVec 256) : Nat := fld h 228 12
def Mh.ctile (h : BitVec 256) : Nat := fld h 240 12
def Mh.reservedSet (h : BitVec 256) : Bool :=
  bitOf h 23 || bitOf h 31 || bitOf h 111 || bitOf h 159 || decide (fld h 190 2 ≠ 0) || decide (fld h 252 4 ≠ 0)

/-! ### GETREQ headers (R200) -/

def Gq.sfmt (h : BitVec 256) : Nat := fld h 0 5
def Gq.wfmt (h : BitVec 256) : Nat := fld h 5 5
def Gq.stream (h : BitVec 256) : Nat := fld h 10 12
def Gq.rows (h : BitVec 256) : Nat := fld h 24 7 + 1
def Gq.off (h : BitVec 256) : Nat := fld h 64 47
def Gq.pitch (h : BitVec 256) : Nat := fld h 160 24
def Gq.xfer (h : BitVec 256) : Nat := fld h 220 8
/-- A bit that the GETREQ header names no field for is set. -/
def Gq.reservedSet (h : BitVec 256) : Bool :=
  decide (fld h 22 2 ≠ 0) || decide (fld h 31 33 ≠ 0) || decide (fld h 111 49 ≠ 0) || decide (fld h 184 36 ≠ 0) || decide (fld h 228 28 ≠ 0)
def Gq.mk (sfmt wfmt stream rows off pitch xfer : Nat) : BitVec 256 :=
  BitVec.ofNat 256 (sfmt + wfmt * 2 ^ 5 + stream * 2 ^ 10 + (rows - 1) * 2 ^ 24 + (off % 2 ^ 47) * 2 ^ 64 + pitch * 2 ^ 160 + xfer * 2 ^ 220)

/-- A reserved bit of a COURIER payload is set (R221): OP 3, CSEQ [31:24], the unnamed bits of bytes 0 to 15, and bytes 80 to 239. -/
def crReservedSet (payload : List Byte) : Bool :=
  let p := ofBytes (payload.take 16)
  decide (p / 2 ^ 4 % 4 = 3) || decide (p / 2 ^ 12 % 16 ≠ 0) || decide (p / 2 ^ 56 % 256 ≠ 0) || decide (p / 2 ^ 81 % 2 ^ 47 ≠ 0)
    || (payload.drop 80).any fun b => decide (b ≠ 0#8)

/-- Elements of one unit of a message: (UTILES + 1) × 128. -/
def Mh.unitElems (h : BitVec 256) : Nat := (Mh.utiles h + 1) * 128

/-! ### Flit headers (R197) -/

def Fh.ftype (h : BitVec 128) : Nat := fld h 0 4
def Fh.vl (h : BitVec 128) : Nat := fld h 4 3
def Fh.eom (h : BitVec 128) : Bool := bitOf h 7
def Fh.lseq (h : BitVec 128) : BitVec 12 := BitVec.ofNat 12 (fld h 8 12)
def Fh.lack (h : BitVec 128) : BitVec 12 := BitVec.ofNat 12 (fld h 20 12)
def Fh.cred (h : BitVec 128) : Nat := fld h 32 8
def Fh.crvl (h : BitVec 128) : Nat := fld h 40 3
def Fh.dst (h : BitVec 128) : FabId := BitVec.ofNat 17 (fld h 44 17)
def Fh.src (h : BitVec 128) : FabId := BitVec.ofNat 17 (fld h 61 17)
def Fh.repoch (h : BitVec 128) : W16 := BitVec.ofNat 16 (fld h 78 16)
def Fh.msgid (h : BitVec 128) : W16 := BitVec.ofNat 16 (fld h 94 16)
def Fh.fidx (h : BitVec 128) : Nat := fld h 110 11
def Fh.reservedSet (h : BitVec 128) : Bool := bitOf h 43 || decide (fld h 121 7 ≠ 0)

def FType.code : FType → Nat
  | .link => 0 | .send => 1 | .arrive => 2 | .put => 3 | .getreq => 4 | .getrsp => 5 | .tether => 6 | .verdict => 7
  | .resend => 8 | .ack => 9 | .nack => 10 | .control => 11 | .courier => 12
def FType.ofCode : Nat → Option FType
  | 0 => some .link | 1 => some .send | 2 => some .arrive | 3 => some .put | 4 => some .getreq | 5 => some .getrsp
  | 6 => some .tether | 7 => some .verdict | 8 => some .resend | 9 => some .ack | 10 => some .nack | 11 => some .control
  | 12 => some .courier
  | _ => none
/-- The role epoch is checked (R198); verdicts and re-sends follow their message. -/
def FType.checked : FType → Bool
  | .send | .arrive | .put | .getreq | .getrsp | .tether => true
  | _ => false
/-- VL matches R198; a GETRSP travels on 4 or 5, a verdict or re-send on that of its message. -/
def FType.vlOk (t : FType) (vl : Nat) : Bool :=
  match t with
  | .link => vl == 0 | .send => vl == 3 | .arrive => vl == 4 | .put => vl == 5 | .getreq => vl == 5
  | .getrsp => vl == 4 || vl == 5 | .tether => vl == 2 | .verdict => 3 ≤ vl && vl ≤ 5 | .resend => 3 ≤ vl && vl ≤ 5
  | .ack => vl == 1 | .nack => vl == 1 | .control => vl == 1 | .courier => vl == 0
/-- Types that bear a 32-byte message header (R199). -/
def FType.hasHdr : FType → Bool
  | .send | .arrive | .put | .getreq | .getrsp | .resend => true
  | _ => false

/-- The header of a flit as it goes out (R197). -/
def Flit.header (f : Flit) (lseq lack : BitVec 12) (cred crvl : Nat) : BitVec 128 :=
  BitVec.ofNat 128 (f.ftype.code + f.vl * 2 ^ 4 + b2n f.eom * 2 ^ 7 + lseq.toNat * 2 ^ 8 + lack.toNat * 2 ^ 20
    + (cred % 256) * 2 ^ 32 + crvl * 2 ^ 40 + f.dst.toNat * 2 ^ 44 + f.src.toNat * 2 ^ 61 + f.repoch.toNat * 2 ^ 78
    + f.msgid.toNat * 2 ^ 94 + (f.fidx % 2048) * 2 ^ 110)

/-! ### Tether blocks (R166, R249) -/

def Tb.group (b : BitVec 768) : Nat := fld b 0 16
def Tb.rank (b : BitVec 768) : Nat := fld b 16 16
def Tb.msize (b : BitVec 768) : Nat := fld b 32 16
def Tb.fmt (b : BitVec 768) : Nat := fld b 48 5
def Tb.avg (b : BitVec 768) : Bool := bitOf b 53
def Tb.expSrc (b : BitVec 768) : Nat := fld b 54 2
def Tb.exp0 (b : BitVec 768) : Int := (BitVec.ofNat 8 (fld b 56 8)).toInt
def Tb.stream (b : BitVec 768) : Nat := fld b 64 12
def Tb.grow (b : BitVec 768) : Nat := fld b 76 4
def Tb.calidx (b : BitVec 768) : Nat := fld b 80 16
def Tb.rfmt (b : BitVec 768) : Nat := fld b 96 5
def Tb.dfmt (b : BitVec 768) : Nat := fld b 101 5
def Tb.depExp (b : BitVec 768) : Nat := fld b 106 4
def Tb.hopWs (b : BitVec 768) : Nat := fld b 110 3
def Tb.lgMask (b : BitVec 768) : Nat := fld b 113 8
def Tb.partSrc (b : BitVec 768) : Bool := bitOf b 121
def Tb.ibase (b : BitVec 768) : Nat := fld b 128 40
def Tb.budget (b : BitVec 768) : Nat := fld b 168 16
def Tb.seq (b : BitVec 768) : Nat := fld b 184 16
def Tb.nunits (b : BitVec 768) : Nat := fld b 200 32
def Tb.rpos (b : BitVec 768) : Nat := fld b 232 12
def Tb.rsize (b : BitVec 768) : Nat := fld b 244 12
def Tb.hpos (b : BitVec 768) : Nat := fld b 256 12
def Tb.hsize (b : BitVec 768) : Nat := fld b 268 12
def Tb.gtab (b : BitVec 768) : Nat := fld b 280 6
def Tb.dest (b : BitVec 768) : Nat := fld b 512 47
def Tb.dpitch (b : BitVec 768) : Nat := fld b 576 24
def Tb.bhold (b : BitVec 768) : Bool := bitOf b 600
def Tb.partOff (b : BitVec 768) : Nat := fld b 640 47
def Tb.reservedSet (b : BitVec 768) : Bool :=
  decide (fld b 122 6 ≠ 0) || decide (fld b 286 226 ≠ 0) || decide (fld b 559 17 ≠ 0) || decide (fld b 601 39 ≠ 0)
    || decide (fld b 687 17 ≠ 0) || decide (fld b 704 64 ≠ 0)
/-- U_c (R168): 84 in X48 and in every group of more than 4,096 members. -/
def Tb.uc (b : BitVec 768) : Nat := if Tb.fmt b = 0x1D || 4096 < Tb.msize b then 84 else 248
/-- Chunks of the tensor (R168). -/
def Tb.chunks (b : BitVec 768) : Nat := (Tb.nunits b + Tb.uc b - 1) / Tb.uc b
/-- Units of chunk c. -/
def Tb.unitsOf (b : BitVec 768) (c : Nat) : Nat := min (Tb.uc b) (Tb.nunits b - c * Tb.uc b)

/-! ### Chunk headers (R169) -/

def Ch.group (h : BitVec 128) : Nat := fld h 0 16
def Ch.chunk (h : BitVec 128) : Nat := fld h 16 32
def Ch.phase (h : BitVec 128) : Nat := fld h 48 2
def Ch.boundExt (h : BitVec 128) : Bool := bitOf h 50
def Ch.startTaken (h : BitVec 128) : Bool := bitOf h 51
def Ch.fmt (h : BitVec 128) : Nat := fld h 52 5
def Ch.hops (h : BitVec 128) : Nat := fld h 64 16
def Ch.seq (h : BitVec 128) : Nat := fld h 80 16
def Ch.nunits (h : BitVec 128) : Nat := fld h 96 16
def Ch.reservedSet (h : BitVec 128) : Bool := decide (fld h 57 7 ≠ 0) || decide (fld h 112 16 ≠ 0)
def Ch.mk (group chunk phase : Nat) (be st : Bool) (fmt hops seq nunits : Nat) : BitVec 128 :=
  BitVec.ofNat 128 (group + chunk * 2 ^ 16 + phase * 2 ^ 48 + b2n be * 2 ^ 50 + b2n st * 2 ^ 51 + fmt * 2 ^ 52
    + (hops % 2 ^ 16) * 2 ^ 64 + seq * 2 ^ 80 + nunits * 2 ^ 96)

/-! ### Calibration entries (R131) -/

def Cal.scale (c : W64) : W16 := BitVec.ofNat 16 (fld c 0 16)
def Cal.zp (c : W64) : Byte := BitVec.ofNat 8 (fld c 16 8)
def Cal.fmt (c : W64) : Nat := fld c 24 5
def Cal.map (c : W64) : Bool := bitOf c 29
def Cal.valid (c : W64) : Bool := bitOf c 31
def Cal.epoch (c : W64) : W16 := BitVec.ofNat 16 (fld c 32 16)
/-- The bits an entry keeps: reserved bits read 0 (R5, R131). -/
def Cal.mask (c : W64) : W64 := c &&& 0x0000FFFFBFFFFFFF#64
/-- The checks of R132 but for the target format. -/
def Cal.usable (c : W64) (e : StreamEntry) : Bool :=
  Cal.valid c && decide (Cal.map c = e.map) && decide (Cal.epoch c = e.epoch) && scaleValid (Cal.scale c)
    && (e.map || decide (Cal.zp c = 0#8))

/-- The bytes of units one after another (R82). -/
def unitsBytes (us : List LUnit) : List Byte := (us.map LUnit.bytes).flatten

/-- Units of `n` elements of format f read from a body (R82, R83): a wide-written substitute announces itself by WIDE and has its
own width, so sizes follow the first record where `wideOk`. -/
def readUnits (w n : Nat) : Nat → List Byte → List LUnit
  | 0, _ => []
  | k + 1, bs =>
    { led := Rec.ofWord (BitVec.ofNat 64 (ofBytes (bs.take 8))), els := slice bs 8 (n * w / 8) }
      :: readUnits w n k (bs.drop (8 + n * w / 8))

end Sys2Proof.Machine
end

