-- ==== Sys2Proof/Machine/Flags.lean ====
section
/-! DEFINITION. Flag and status computations: event statuses and the event rule (R240, R241), the end of waits (R242, R254),
sequencer faults (R255), interrupt details (R338), the Envelope's feed and freeze (R126 to R128), the mirror (R18). -/

namespace Sys2Proof.Machine

/-! ### Event statuses (R240) -/

def evStatus (kind code info16 info32 : Nat) : W64 :=
  BitVec.ofNat 64 (kind + code * 2 ^ 8 + (info16 % 2 ^ 16) * 2 ^ 16 + (info32 % 2 ^ 32) * 2 ^ 32)
def evDrain (code rej dp : Nat) : W64 := evStatus 1 code (rej + dp * 256) 0
def evXfer (status xfer n : Nat) : W64 := evStatus 2 status xfer n
def evTether (code ctx reason status : Nat) : W64 := evStatus 3 code (ctx + reason * 256) status
def evCourier (code g res : Nat) : W64 := evStatus 4 code g res
def evSignal (code sender : Nat) : W64 := evStatus 5 code sender 0
def evTimeout (ev held : Nat) : W64 := evStatus 6 0xFF ev held
def evOverflow (ev : Nat) : W64 := evStatus 7 0xFE ev 0
/-- A status is non-OK when its CODE is not 0 (R240). -/
def evBad (st : W64) : Bool := decide (fld st 8 8 ≠ 0)

/-- A signal reaches an event (R241). -/
def eventAdd (ev : Nat) (cs : Byte × W64) (st : W64) : Byte × W64 :=
  if cs.1 = 255#8 then (cs.1, if evBad cs.2 then cs.2 else evOverflow ev)
  else (cs.1 + 1, if evBad cs.2 then cs.2 else st)

/-- WAITEV's consumption (R242): C − N, and S back to 0 with C. -/
def eventTake (cs : Byte × W64) (n : Nat) : Byte × W64 :=
  let c := BitVec.ofNat 8 (cs.1.toNat - n)
  (c, if c = 0#8 then 0#64 else cs.2)

/-! ### Sequencer bookkeeping -/

def Seq.reg (q : Seq) (i : Nat) : W64 := if i = 0 then 0 else tabGet q.regs i 0
/-- Writes to G0 are discarded (R227). -/
def Seq.setReg (q : Seq) (i : Nat) (v : W64) : Seq := if i = 0 then q else { q with regs := tabSet q.regs i v 0 }
def Seq.lc (q : Seq) (i : Nat) : BitVec 24 := tabGet q.lcs i 0
def Seq.event (q : Seq) (ev : Nat) : Byte × W64 := tabGet q.events ev (0, 0)
def Seq.setEvent (q : Seq) (ev : Nat) (v : Byte × W64) : Seq := { q with events := tabSet q.events ev v (0, 0) }
/-- The issue of an instruction completes: the next word, one more instruction. -/
def Seq.advance (q : Seq) : Seq :=
  { q with st := 1, pc := q.pc + 1, instrCnt := satAdd q.instrCnt 1, wait := .none, waitOpc := 0, waitEv := 0 }
/-- The sequencer blocks at its instruction (R230, R231). -/
def Seq.park (q : Seq) (opc : Nat) (ev : Nat) (w : WaitFor) : Seq :=
  { q with st := 2, wait := w, waitOpc := BitVec.ofNat 6 opc, waitEv := BitVec.ofNat 8 ev }

/-! ### A sequencer in the mirror (R18, R227) -/

/-- A sequencer's section (R227, R276). -/
def Seq.image (x : Seq) : SeqImage :=
  { st := x.st, wstore := x.wstoreFlag, pc := x.pc, regs := x.regs, lcs := x.lcs, stack := x.stack, events := x.events, len := x.lenReg, src := x.srcReg }

/-- A sequencer's state goes to the twin (R18, R227, R275). -/
def Part.mirrorSeq (s : Part) (q : Nat) : Part := s.mirror (.sequencerState (Fin.ofNat 9 q) (s.seq q).image)

/-- One Envelope goes to the twin (R18, R130). -/
def Part.mirrorEnv (s : Part) (n : Nat) : Part := s.mirror (.envelope (Fin.ofNat 4096 n) (s.env n).ring (s.env n).acc)

/-! ### Waits and signals (R240 to R242) -/

/-- The end of a WAITEV, if it has come (R242): the expiry first (R138), then C ≥ N. -/
def Seq.testEvent (q : Seq) (now : Nat) : Seq :=
  match q.wait with
  | .event ev n tmo ga =>
    let cs := q.event ev
    if (match tmo with | some t => decide (t ≤ now) | none => false) then (q.setReg ga (evTimeout ev cs.1.toNat)).advance
    else if n ≤ cs.1.toNat then ((q.setEvent ev (eventTake cs n)).setReg ga cs.2).advance
    else q
  | _ => q

/-- The expiry of a WAITEV's window alone (R242). -/
def Seq.expire (q : Seq) (now : Nat) : Seq :=
  match q.wait with
  | .event ev _ (some t) ga => if t ≤ now then (q.setReg ga (evTimeout ev (q.event ev).1.toNat)).advance else q
  | _ => q

/-- A unit signals an event of a sequencer (R240 to R242); an event signal wakes the Waystation (R313). -/
def Part.signal (s : Part) (q ev : Nat) (st : W64) : Part :=
  let now := s.now
  let s := (s.onSeq q fun x => let y := x.expire now; (y.setEvent ev (eventAdd ev (y.event ev) st)).testEvent now).mirrorSeq q
  if q < 8 then s.wake (wsDom q) else s.wake .gh

def Part.signalIf (s : Part) (en : Bool) (q ev : Nat) (st : W64) : Part := if en then s.signal q ev st else s

/-- A hardware report to K1 without a note (R291), a queue post, which wakes the firmware complex (R313). -/
def Part.report (s : Part) (sender ev : Byte) (arg : W32) : Part :=
  let s := s.wake .fwc
  if s.mb.runs 1 then s
  else if s.mb.k1q.length < 1024 then s.onMb fun m => { m with k1q := m.k1q ++ [(0, sender, ev, arg)] }
  else s.onMb fun m => { m with qlostE := BitVec.ofNat 16 (satN 16 m.qlostE.toNat 1) }

/-- A sequencer faults (R255): FAULT, FCODE, FAULT_PC, the interrupt cause, a report to K1. -/
def Part.seqFault (s : Part) (q code : Nat) : Part :=
  ((s.onSeq q fun x =>
    { x with
      st := 4
      fcode := BitVec.ofNat 8 code
      faultPc := x.pc
      wait := .none
      waitOpc := 0
      waitEv := 0 }).onIrq fun i => { i with seqFault := setBitAt i.seqFault q }).report (BitVec.ofNat 8 q) 0
    (BitVec.ofNat 32 code)

/-- FENCE's scopes are complete (R254). -/
def Part.fenceOk (s : Part) (q scope : Nat) : Bool :=
  (!(scope.testBit 0) || decide ((s.seq q).stores = 0)) && (!(scope.testBit 1) || decide ((s.seq q).drains = 0))
    && (!(scope.testBit 2) || s.gh.xfers.all fun x => decide (x.2.seq ≠ q))
    && (!(scope.testBit 3) || s.ctxs.all fun c => match c.2.owner with | some o => decide (o.1 ≠ q) | none => true)

/-- FENCE ends: with the word-store flag set and NOC in scope it faults and clears the flag (R254). -/
def Part.fenceEnd (s : Part) (q scope : Nat) : Part :=
  if scope.testBit 0 && (s.seq q).wstoreFlag then (s.onSeq q fun x => { x with wstoreFlag := false }).seqFault q 7
  else s.onSeq q Seq.advance

/-- Test the fences that wait. -/
def Part.retestFences (s : Part) : Part :=
  s.each (List.range 9) fun s q =>
    match (s.seq q).wait with
    | .fence scope => if s.fenceOk q scope then (s.fenceEnd q scope).mirrorSeq q else s
    | _ => s

/-- Test the STEPMARKs that wait (R253): (step − S) mod 2^32 below 2^31. -/
def Part.retestMarks (s : Part) : Part :=
  s.each (List.range 9) fun s q =>
    match (s.seq q).wait with
    | .stepmark m => if (s.glob.step - m).toNat < 2 ^ 31 then (s.onSeq q Seq.advance).mirrorSeq q else s
    | _ => s

/-! ### CONTROL messages (R273) -/

/-- A CONTROL message is made; it goes out at the end of the command. -/
def Part.tell (s : Part) (m : CtlMsg) : Part := { s with ctlOut := s.ctlOut ++ [m] }

/-- A member's report to its group's manager; a STALL or a LOSS expects an answer (R272). -/
def Part.tellManager (s : Part) (self : FabId) (group : Nat) (kind : Nat) (seq : W16) (chunk : Nat) (rank ext : Nat) : Part :=
  match tabFind s.groups group with
  | none => s
  | some g =>
    let t := s.now
    let rep := decide (kind = 0x10) || decide (kind = 0x20)
    let s : Part := { s with groups := tabInsert s.groups group { g with reportAt := if rep && g.reportAt.isNone then some t else g.reportAt } }
    s.tell (.mk' g.mgrId kind
      { src := self, group := BitVec.ofNat 16 group, jseq := 0, seq := seq, chunk := BitVec.ofNat 32 chunk, rank := BitVec.ofNat 16 rank } ext)

/-- Contexts of a bank: 0 the instance's own, 1 the twin's (R166). -/
def Part.ctxOf (s : Part) (bank c : Nat) : Option Ctx := tabFind (if bank = 0 then s.ctxs else s.twinCtxs) c

/-! ### Interrupt details (R338) -/

def Part.irqDpErr (s : Part) (n : Nat) : Part := s.onIrq fun i => { i with dpErr := setBitAt i.dpErr n }
def Part.irqDpRej (s : Part) (n : Nat) : Part := s.onIrq fun i => { i with dpRej := setBitAt i.dpRej n }
def Part.irqDpFence (s : Part) (n : Nat) : Part := s.onIrq fun i => { i with dpFence := setBitAt i.dpFence n }
def Part.irqCr (s : Part) (g : Nat) : Part := s.onIrq fun i => { i with cr := setBitAt i.cr g }
/-- The counter and the cause of R81 and R114. -/
def Part.ledgerErr (s : Part) (n : Nat) : Part :=
  if n = 0 then s else s.onSsu fun u => { u with ledgerErr := true, ledgerErrCnt := satAdd u.ledgerErrCnt n }

/-! ### The Envelope (R126 to R128) -/

/-- A bfloat16 statistic as a value. -/
def bfQ (w : W16) : Q := (ofBf16 w).fin?.getD ⟨0, 1⟩

/-- An observation joins the accumulator (R127). -/
def Env.feed (e : Env) (hi lo : Q) : Env :=
  let h := bf16Dir true hi
  let l := bf16Dir false lo
  match e.acc with
  | none => { e with acc := some (h, l) }
  | some (a, b) => { e with acc := some (if Q.lt (bfQ a) (bfQ h) then h else a, if Q.lt (bfQ l) (bfQ b) then l else b) }

/-- A unit's record has been written: its largest and smallest finite stage-4 values feed the stream (R127); a change is
mirrored (R130). -/
def Part.feed (s : Part) (stream : Nat) (vals : List Val) : Part :=
  match maxOf vals, minOf vals with
  | some hi, some lo =>
    let e := s.env stream
    let e' := e.feed hi lo
    let s := s.onEnv stream fun _ => e'
    if e'.acc = e.acc then s else s.mirror (.envelope (Fin.ofNat 4096 stream) e'.ring e'.acc)
  | _, _ => s

/-- The frozen pair of a ring (R126, R128). -/
def ringStat (ring : List (W16 × W16)) : W16 × W16 :=
  match ring with
  | [] => (0x7F80#16, 0xFF80#16)
  | r :: rs => (rs.foldl (fun a x => if Q.lt (bfQ a) (bfQ x.1) then x.1 else a) r.1,
      rs.foldl (fun a x => if Q.lt (bfQ x.2) (bfQ a) then x.2 else a) r.2)

/-- The step mark's update of one Envelope (R128), with the K that takes effect. -/
def Env.mark (e : Env) (k : Nat) : Env :=
  let ring := match e.acc with
    | some o => (o :: e.ring).take e.kEff
    | none => e.ring
  let ring := ring.take k
  let ring := if e.clearReq then [] else ring
  let st := ringStat ring
  { e with ring := ring, kEff := k, acc := none, eHi := st.1, eLo := st.2, clearReq := false }

/-- What an empty or filled pair reads as (R126). -/
def Env.accPair (e : Env) : W16 × W16 := e.acc.getD (0x7F80#16, 0xFF80#16)

end Sys2Proof.Machine
end

