-- ==== Sys2Proof/Machine/Drain.lean ====
section
/-! DEFINITION. Drain ports: checks at issue (R155), scale modes (R119, R129, R132), the chain (R146 to R151, R157, R158), output
addresses (R144), completion and rejection (R156, R160). -/

namespace Sys2Proof.Machine

/-! ### Checks at issue (R155) -/

/-- TFMT is a target of the chain (R146). -/
def chainTarget (c : Nat) (f : Fmt) : Bool :=
  if c = 0 then f == .fp32
  else if c ≤ 3 then !f.isRun
  else if c = 6 then f == .int8 || f == .uint8
  else if c = 9 then f.isRun
  else f.isLedger

/-- DEST allowed for the chain and target (R146, R147). -/
def chainDest (c dest : Nat) (f : Fmt) : Bool :=
  (if c = 0 then dest == 0
   else if c ≤ 3 then dest == 0 || !(f == .fp16 || f.isMx)
   else if c = 6 || c = 10 then dest ≤ 1
   else if c = 9 then dest == 2
   else if c = 11 then dest == 1 || dest == 2
   else dest ≤ 2)

def aligned64 (w : W64) : Bool := decide (w.toNat % 64 = 0)
def DrainCtx.aligned (c : DrainCtx) : Bool :=
  aligned64 c.data && aligned64 c.ledger && aligned64 c.bias && aligned64 c.res && aligned64 c.smooth && aligned64 c.stat

/-- A descriptor that asks for lodge mode, and so names a lodge by its LODGE field (R119 steps 1 and 4, R140, R149): a Ledger-scaled
target, C10 or MODE = lodge, more than one tile, and a DEST that a lodge may have (R122). -/
def Desc.asksLodge (d : BitVec 128) (e : StreamEntry) : Bool :=
  ((Fmt.ofCode (Desc.tfmt d)).map Fmt.isLedger).getD false && (decide (Desc.chain d = 10) || decide (e.mode = 1#2)) && decide (1 < e.tiles)
    && decide (Desc.dest d ≤ 1)

/-- The checks 0x01 to 0x08 and 0x0A to 0x0C of R155 in table order; `tagOk` is the state's answer to 0x0C, `joinOk` to the join of
R123, `joins` whether the descriptor names an open or opening lodge (R119 step 1), `lodges` whether it goes to a lodge, as a
deposit or by asking for one: its blocks then run along the row and need no pair (R111, R149). 0 passes. Code 0x0B is for a descriptor that rotates, since no
other has a use for the sign vector of its stream (R97; DESIGN CHOICE, log entry 57). -/
def descCheck (d : BitVec 128) (e : StreamEntry) (c : DrainCtx) (wide joins joinOk lodges tagOk : Bool) : Nat :=
  let ch := Desc.chain d
  if Desc.reserved d ≠ 0 || 12 ≤ ch || Desc.ctx d = 3 || Desc.dest d = 3
      || (Desc.addBias d && !((4 ≤ ch && ch ≤ 7) || (9 ≤ ch && ch ≤ 11)))
      || (Desc.addRes d && !(ch = 2 || (4 ≤ ch && ch ≤ 11))) then 1
  else match Fmt.ofCode (Desc.tfmt d) with
    | none => 2
    | some f =>
      if !chainTarget ch f || (Desc.stagewise d && ch ≤ 3) then 2
      else if !chainDest ch (Desc.dest d) f then 3
      else if (ch = 6 && (!e.map || e.cls ≠ 0)) || (ch ≠ 6 && e.map) || (ch = 5 && !e.smoothEn) then 4
      else if f.isMx && !((1 ≤ ch && ch ≤ 3) && Desc.dest d = 0) then 5
      else if 3 < Desc.streams d e then 6
      else if e.tiles ≤ Desc.tile d || !c.aligned || (f.width = 6 && Desc.dest d = 0 && !bitOf c.cfg 0) then 7
      else if f.isLedger && ch ≠ 10 && !wide && e.mode = 0#2 && 1 < e.tiles then 8
      else if joins && !joinOk then 9
      else if Desc.rotates d e && e.rotBlock = 256 && (e.tiles % 2 = 1 || (!lodges && !Desc.pair d)) then 10
      else if Desc.rotates d e && e.signEn && 16384 < e.signBase.toNat + e.tiles then 11
      else if !tagOk then 12
      else 0

/-! ### Scale modes (R119, R129, R132) -/

/-- The calibration entry a descriptor reads (R132). -/
def calIndex (e : StreamEntry) (c : Nat) : Nat := (e.calBase.toNat + c) % 65536

/-- The forecast scale from the frozen Envelope (R129). -/
def forecastScale (f : Fmt) (e : StreamEntry) (hi lo : W16) : W16 × Byte :=
  let m : Q := ⟨16 + e.headroom.toNat, 16⟩
  if e.map then asymScale f e.pow2 (some (Q.mul m (bfQ lo))) (some (Q.mul m (bfQ hi)))
  else (symScale f e.pow2 (some (Q.mul m (Q.maxQ (bfQ hi) (Q.neg (bfQ lo))))), 0#8)

/-- What a mode selection gives. -/
structure ModeSel where
  mode : WMode
  scale : W16
  zp : Byte
  cal : Option Nat
  miss : Bool
  deriving DecidableEq, Repr

def ModeSel.of (m : WMode) : ModeSel := ⟨m, 0x3F80, 0, none, false⟩

/-- Forecast, or wide on a cold stream (R119 step 5). -/
def selForecast (f : Fmt) (e : StreamEntry) (v : Env) : ModeSel :=
  if v.ring.isEmpty then .of .wide
  else let sc := forecastScale f e v.eHi v.eLo; ⟨.forecast, sc.1, sc.2, none, false⟩

/-- Calibrated, or wide on a miss (R119 step 6). -/
def selCalibrated (s : Part) (f : Fmt) (code : Nat) (e : StreamEntry) (c : Nat) : ModeSel :=
  let i := calIndex e c
  let w := tabGet s.ssu.cal i 0
  if Cal.usable w e && Cal.fmt w = code && f.isLedger then ⟨.calibrated, Cal.scale w, Cal.zp w, some i, false⟩
  else ⟨.wide, 0x3F80, 0, none, true⟩

/-- LODGE_FB's choice where lodge mode cannot be granted (R119 step 4); none rejects. -/
def selFallback (s : Part) (f : Fmt) (code stream : Nat) (e : StreamEntry) (c : Nat) : Option ModeSel :=
  if e.lodgeFb = 2#2 then some (selForecast f e (s.env stream))
  else if e.lodgeFb = 3#2 then some (selCalibrated s f code e c)
  else none

/-- Steps 2 to 6 of R119 where no lodge can be had (Gatehouse, one tile, DEST 2 or too large a need); `mode` is the stream's or C10's. None rejects. -/
def selMode (s : Part) (f : Fmt) (code stream : Nat) (e : StreamEntry) (c mode : Nat) : Option ModeSel :=
  if !f.isLedger then some (.of .plain)
  else if (s.env stream).wide then some (.of .wide)
  else if mode = 0 then (if e.tiles = 1 then some (.of .live) else none)
  else if mode = 1 then (if e.tiles = 1 then some (.of .live) else selFallback s f code stream e c)
  else if mode = 2 then some (selForecast f e (s.env stream))
  else some (selCalibrated s f code e c)

def Part.calMiss (s : Part) (miss : Bool) (stream : Nat) : Part :=
  if miss then (s.onSsu fun u => { u with calMiss := satAdd u.calMiss 1 }).trace 0 0x0603 [BitVec.ofNat 32 stream] else s

/-! ### Sizes -/

/-- Target format in force: BF16 for rows written wide (R120), X48 for a C9 entry of a rank at or beyond 4,096 (R172). -/
def DrainJob.fmt (j : DrainJob) : Fmt :=
  if j.mode = .wide then .bf16 else (Fmt.ofCode (Desc.tfmt j.desc)).getD .fp32

def DrainJob.rows (j : DrainJob) : Nat := Desc.rows j.desc
/-- Tiles whose output this descriptor writes: two on a lead. -/
def DrainJob.tilesOut (j : DrainJob) : Nat := match j.pair with | .lead _ => 2 | _ => 1

/-- Larder footprint of the output buffer (R146). -/
def footprint (rows : Nat) (f : Fmt) : Nat := (rows * (8 + 16 * f.width) + 1023) / 1024

/-! ### The chain -/

/-- The format of an operand (R143 CFG): kind 0 bias, 1 residual, 2 smoothing. -/
def opndBf (c : DrainCtx) (kind : Nat) : Bool := bitOf c.cfg (kind + 1)
def opndSize (c : DrainCtx) (kind : Nat) : Nat := if opndBf c kind then 2 else 4
def opndKey (kind tile row : Nat) : Nat := kind * 1048576 + tile * 128 + row

/-- Operand values in the order of their channels. -/
def opndVals (c : DrainCtx) (kind n : Nat) (bs : List Byte) : List Val :=
  if opndBf c kind then (unpackCodes 16 n bs).map fun x => ofBf16 (BitVec.ofNat 16 x)
  else (unpackCodes 32 n bs).map fun x => ofFp32 (BitVec.ofNat 32 x)

/-- The die address of an operand (R144). -/
def opndAddr (c : DrainCtx) (kind tile row : Nat) : Nat :=
  match kind with
  | 0 => c.bias.toNat + tile * 128 * opndSize c 0
  | 1 => c.res.toNat + row * fld c.resPitch 0 24 * 64 + tile * 128 * opndSize c 1
  | _ => c.smooth.toNat + tile * 128 * opndSize c 2

/-- What the descriptor runs of stages 1 to 4 (R146, R147, R157). -/
def DrainJob.cfg (j : DrainJob) : FwdCfg :=
  { stage1 := Desc.hasBias j.desc || Desc.hasRes j.desc
    smooth := chainSmooth (Desc.chain j.desc) j.se
    rotN := if Desc.rotates j.desc j.se then j.se.rotBlock else 0
    signs := if Desc.rotates j.desc j.se && j.se.signEn then some j.signs else none
    ifmt := if Desc.stagewise j.desc then some (if Desc.ifmtBf j.desc then bf16Fmt else fp32Fmt) else none }

/-- Keys of the operands that row r of tile t needs. -/
def DrainJob.keys (j : DrainJob) (t r : Nat) : List Nat :=
  (if Desc.hasBias j.desc then [opndKey 0 t 0] else []) ++ (if Desc.hasRes j.desc then [opndKey 1 t r] else [])
    ++ (if chainSmooth (Desc.chain j.desc) j.se then [opndKey 2 t 0] else [])

/-- A stagewise C9 rounds the stage-4 value into IFMT before it enters the running sum, whether or not a stage has run (R157). -/
def DrainJob.c9Round (j : DrainJob) (o : FwdOut) : FwdOut :=
  let x := roundStage (decide (Desc.chain j.desc = 9)) j.cfg.ifmt o.vals
  { o with vals := x.1, clips := orFlags o.clips x.2 }

/-- Stages 1 to 4 of n elements of row r from tile t on (R98). -/
def DrainJob.stages (j : DrainJob) (t r n : Nat) (x : List Val) : FwdOut :=
  let get (kind row : Nat) : List Val := opndVals j.ctx kind n (tabGet j.opnd (opndKey kind t row) [])
  j.c9Round (forwardStages j.cfg (t * 128) x
    ((if Desc.hasBias j.desc then [get 0 0] else []) ++ (if Desc.hasRes j.desc then [get 1 r] else []))
    (if j.cfg.smooth then get 2 0 else []))

/-- What one unit of one row becomes. -/
structure UnitOut where
  /-- The unit with its record, where the target has one. -/
  unit : Option LUnit
  /-- Element bytes and MX scale bytes of a row without a record. -/
  raw : List Byte
  mx : List Byte
  keep : Option LUnit
  stat : W32
  clips : Nat
  poison : Bool
  wide : Bool
  deriving DecidableEq, Repr

/-- The statistic record of C7 (R151). -/
def statRec (vals : List Val) : W32 :=
  match maxOf vals, minOf vals with
  | some hi, some lo => BitVec.ofNat 32 ((bf16Dir true hi).toNat + (bf16Dir false lo).toNat * 65536)
  | _, _ => 0xFF807F80#32

/-- Stages 5 to 7 of one Ledger unit, or the write of a wide or MX row (R83 to R86, R89, R99 to R103, R120). `poison` comes from
errors of the row (R43, R52, R158). An MX target has neither a wide row's NaN rule nor a record: a poisoned row becomes NaN in every element there, the
scale bytes 0xFF (DESIGN CHOICE, log entry 57). -/
def DrainJob.encode (j : DrainJob) (o : FwdOut) (vals : List Val) (poison : Bool) : UnitOut :=
  let f := (Fmt.ofCode (Desc.tfmt j.desc)).getD .fp32
  let base := baseRec j.se.epoch (Desc.rotates j.desc j.se) j.cfg.smooth (poison || o.poison) o.clipped
  let none' : UnitOut := ⟨none, [], [], none, 0, 0, poison || o.poison, false⟩
  if f.isLedger then
    if j.mode = .wide then
      { none' with
        unit := some (wideUnit .bf16 { base with wide := true } vals)
        wide := true
        stat := statRec vals }
    else
      let sc := if j.mode = .forecast || j.mode = .calibrated then (j.scale, j.zp) else liveScale f j.se j.se.map vals
      let u := narrowUnit f j.se.map sc base vals
      { none' with
        unit := some u.1
        keep := if (j.mode = .forecast || j.mode = .calibrated) && Desc.dest j.desc ≠ 0 then some (wideUnit .bf16 base vals) else none
        stat := statRec vals
        clips := u.2
        poison := u.1.led.poison }
  else if f.isMx then
    let m := mxRow f (if poison || o.poison then vals.map fun _ => Val.nan false else vals)
    { none' with raw := m.1, mx := m.2 }
  else if Desc.dest j.desc = 0 then { none' with raw := wideRow f (poison || o.poison) vals }
  else { none' with unit := some (wideUnit f base vals) }

/-! ### Output addresses and writes (R144) -/

/-- Bytes of one unit's elements in die memory. -/
def DrainJob.outBytes (j : DrainJob) (n : Nat) : Nat := n * j.fmt.width / 8

/-- Where row r of the unit at tile t goes: element bytes per row `len`. -/
def DrainJob.outAddr (j : DrainJob) (t r len : Nat) : Nat :=
  let c := j.ctx
  if bitOf c.cfg 0 then c.data.toNat + (Desc.rowblk j.desc * j.se.tiles + t) * (128 * (16 * j.fmt.width)) + r * len
  else c.data.toNat + (Desc.rowblk j.desc * 128 + r) * fld c.pitch 0 24 * 64 + t * (16 * j.fmt.width)

/-- The block of tile t in a plane of `size` bytes per tile. -/
def DrainJob.planeAddr (j : DrainJob) (base : W64) (t size : Nat) : Nat :=
  base.toNat + (Desc.rowblk j.desc * j.se.tiles + t) * size

/-- A job's NoC write; the pieces are counted in the job by the caller. -/
def Part.jobWrite (s : Part) (dp : Nat) (j : DrainJob) (off : Nat) (data : List Byte) (use : NocUse) : Part × DrainJob :=
  if data.isEmpty then (s, j)
  else (s.nocWrite (dp / 8) off data use, { j with nocDue := j.nocDue + writePieces off data.length })

/-- C11's wide row (R150): stage-1 values in WFMT at the data address of tile t, `len` bytes to a 128-element row. -/
def Part.writeWide (s : Part) (dp : Nat) (j : DrainJob) (t r : Nat) (poison : Bool) (wide1 : List Val) : Part × DrainJob :=
  let f : Fmt := if Desc.wfmtBf j.desc then .bf16 else .fp32
  let len := 16 * f.width
  let c := j.ctx
  let off := if bitOf c.cfg 0 then c.data.toNat + (Desc.rowblk j.desc * j.se.tiles + t) * (128 * len) + r * (wide1.length * f.width / 8)
    else c.data.toNat + (Desc.rowblk j.desc * 128 + r) * fld c.pitch 0 24 * 64 + t * len
  s.jobWrite dp j off (wideRow f poison wide1) (.drainOut dp j.id)

/-- Row r's elements to die memory: 6-bit rows go out in pairs, since one is no whole number of 64 B units (R144). -/
def Part.writeRow (s : Part) (dp : Nat) (j : DrainJob) (h : HalfOut) (t r : Nat) (bytes : List Byte) :
    Part × DrainJob × HalfOut :=
  let use := NocUse.drainOut dp j.id
  if bytes.length % 64 = 0 then
    let w := s.jobWrite dp j (j.outAddr t r bytes.length) bytes use
    (w.1, w.2, h)
  else if r % 2 = 1 then
    let w := s.jobWrite dp j (j.outAddr t (r - 1) bytes.length) (h.rowHold ++ bytes) use
    (w.1, w.2, { h with rowHold := [] })
  else if r + 1 = j.rows then
    let w := s.jobWrite dp j (j.outAddr t r bytes.length) bytes use
    (w.1, w.2, h)
  else (s, j, { h with rowHold := bytes })

/-- A 6-bit row that waits for its neighbour is written by itself (R162 point 1). -/
def Part.flushRow (s : Part) (dp : Nat) (j : DrainJob) (h : HalfOut) (t : Nat) : Part :=
  if h.rowHold.isEmpty then s
  else (s.jobWrite dp j (j.outAddr t (j.row - 1) h.rowHold.length) h.rowHold (.drainOut dp j.id)).1

/-- Rows of an abandoned descriptor that its accumulator data had reached are written (R162 point 1). -/
def Part.flushRows (s : Part) (dp : Nat) (j : DrainJob) : Part :=
  let t := Desc.tile j.desc
  (s.flushRow dp j j.half0 t).flushRow dp j j.half1 (t + 1)

/-- The blocks of a tile, written whole with filled rows A to 127 (R144). -/
def Part.writeBlocks (s : Part) (dp : Nat) (j : DrainJob) (h : HalfOut) (t : Nat) (use : NocUse) : Part × DrainJob :=
  let ledRows := h.led ++ List.replicate (128 - h.led.length) (fillRec j.se.epoch).word
  let w := if h.led.isEmpty then (s, j)
    else s.jobWrite dp j (j.planeAddr j.ctx.ledger t 1024) ((ledRows.map fun (r : W64) => toBytes 8 r.toNat).flatten) use
  let w := if h.scales.isEmpty then w
    else w.1.jobWrite dp w.2 (j.planeAddr j.ctx.ledger t 512)
      ((h.scales ++ List.replicate (128 - h.scales.length) [0, 0, 0, 0]).flatten) use
  if h.stats.isEmpty then w
  else w.1.jobWrite dp w.2 (j.planeAddr j.ctx.stat t 512)
    (((h.stats ++ List.replicate (128 - h.stats.length) 0).map fun (r : W32) => toBytes 4 r.toNat).flatten) use

/-- C9's entry into the running sum at the context's u0 (R148, R170, R172): X48 for ranks at or beyond 4,096. -/
def Part.c9Unit (s : Part) (j : DrainJob) (t r : Nat) (o : FwdOut) (vals : List Val) (poison : Bool) : LUnit :=
  match tabFind s.ctxs (Desc.tag j.desc % 64) with
  | none => wideUnit .bf16 (baseRec j.se.epoch false false true false) vals
  | some c =>
    let n := (Desc.rowblk j.desc * 128 + r) * j.se.tiles + t
    let x48 := decide (Desc.tfmt j.desc = 0x1D) || decide (4096 ≤ Tb.rank c.blk)
    let cfg : RunCfg := { x48 := x48, key := c.se.key, h := Tb.rank c.blk, i0 := (Tb.ibase c.blk + n * 128) % 2 ^ 40 }
    let e := enterRun cfg c.exp0 vals
    RsUnit.toUnit
      { led :=
          { baseRec j.se.epoch (Desc.rotates j.desc j.se) false (poison || o.poison || e.2.2) o.clipped with
            scale := unitScale e.1
            exact := x48 }
        ue := e.1
        els := e.2.1 }

/-- One unit's output is written: to die memory, or to the Larder buffer, with the wide row of C11 (R150), the statistic of C7
(R151), the counters, and the Envelope's feed by every unit whose record is written (R120, R127). -/
def Part.writeUnit (s : Part) (dp : Nat) (j : DrainJob) (h : HalfOut) (t r : Nat) (o : FwdOut) (poison : Bool) :
    Part × DrainJob × HalfOut :=
  let vals := o.vals
  let u := if Desc.chain j.desc = 9 then
      let x := s.c9Unit j t r o vals poison
      { j.encode o vals poison with unit := some x, poison := x.led.poison }
    else j.encode o vals poison
  let s := if u.wide then s.onSsu fun x => { x with wideRows := satAdd x.wideRows 1 } else s
  let s := if u.unit.isSome then s.feed (Desc.stream j.desc) vals else s
  let h := { h with clips := h.clips + u.clips, stats := if Desc.chain j.desc = 7 then h.stats ++ [u.stat] else h.stats }
  let j := { j with poisoned := j.poisoned || u.poison }
  let w11 := if Desc.chain j.desc = 11 then s.writeWide dp j t r poison o.wide1 else (s, j)
  match u.unit with
  | some x =>
    if Desc.dest j.desc = 0 then
      Part.writeRow w11.1 dp w11.2 { h with led := h.led ++ [x.led.word] } t r x.els
    else (w11.1, w11.2, { h with units := h.units ++ [x], keep := h.keep ++ u.keep.toList })
  | none => Part.writeRow w11.1 dp w11.2 { h with scales := if u.mx.isEmpty then h.scales else h.scales ++ [u.mx] } t r u.raw

/-! ### Ends of descriptors (R154, R156, R160 to R162) -/

/-- Count a program's accepted descriptor (R254). -/
def Part.seqDrainBegin (s : Part) (src : Option (Fin 9)) : Part :=
  match src with | some q => s.onSeq q.val fun x => { x with drains := x.drains + 1 } | none => s

/-- A program's descriptor has ended (R254). -/
def Part.seqDrainEnd (s : Part) (src : Option (Fin 9)) : Part :=
  match src with
  | some q => (s.onSeq q.val fun x => { x with drains := x.drains - 1 }).retestFences
  | none => s

/-- A descriptor completes (R160): the count, the event, the program's fence. Codes of R240. -/
def Part.drainEnd (s : Part) (dp : Nat) (d : BitVec 128) (src : Option (Fin 9)) (code : Nat) : Part :=
  (((s.worked (quadOf dp)).onDp dp fun p => { p with tileCnt := satAdd p.tileCnt 1 }).signalIf (Desc.evtEn d) (dp / 8) (Desc.event d)
    (evDrain code 0 dp)).seqDrainEnd src

/-- A descriptor is lost to a fence (R162). R160 counts in WL_DP_TILE_CNT the descriptors that complete and lists FENCED and REJECTED
among the statuses: the model counts neither a lost nor a rejected descriptor (DESIGN CHOICE, log entry 27). -/
def Part.drainLost (s : Part) (dp : Nat) (d : BitVec 128) (src : Option (Fin 9)) : Part :=
  ((s.worked (quadOf dp)).signalIf (Desc.evtEn d) (dp / 8) (Desc.event d) (evDrain 4 0 dp)).seqDrainEnd src

/-- Rejection (R156): the slot, the record, the count, the interrupt and the event. -/
def Part.reject (s : Part) (dp : Nat) (d : BitVec 128) (src : Option (Fin 9)) (code : Nat) : Part :=
  ((((s.emit (.slotFree dp (Desc.slot d))).onDp dp fun p =>
    { p with
      reject := BitVec.ofNat 32 (code + Desc.chain d * 2 ^ 8 + b2n src.isSome * 2 ^ 12 + Desc.stream d * 2 ^ 16)
      rejectCnt := satAdd p.rejectCnt 1 }).irqDpRej dp)).signalIf (Desc.evtEn d) (dp / 8) (Desc.event d) (evDrain 5 code dp)

/-- The pending descriptor moves up to a free executing place. -/
def Dp.moveUp (p : Dp) : Dp := match p.exec with | some _ => p | none => { p with exec := p.pend, pend := none }

/-- A late deposit (R125): no read, the slot back, the count and status LATE. -/
def Part.lateDeposit (s : Part) (dp : Nat) (d : BitVec 128) (src : Option (Fin 9)) : Part :=
  Part.drainEnd (((s.seqDrainBegin src).emit (.slotFree dp (Desc.slot d))).onSsu fun u => { u with lodgeLate := satAdd u.lodgeLate 1 })
    dp d src 6

end Sys2Proof.Machine
end

