-- ==== Sys2Proof/Machine/Links.lean ====
section
/-! DEFINITION. The Gatehouse as a sender: identities and routes (R193, R194), flits and their order (R199, R202, R203, R205),
control traffic (R273), and what the ends of messages do to transfers (R211 to R213, R218, R248). -/

namespace Sys2Proof.Machine

/-! ### Identities and routes -/

/-- WL_GH_IDENT: side, package, and the die number of the silicon (R193, R225). -/
def Part.ownId (s : Part) : FabId :=
  BitVec.ofNat 17 (Config.die.toNat + s.gh.package.toNat * 4 + b2n s.gh.side * 65536)

/-- The identities the instance answers for (R193, R37). -/
def Part.answers (s : Part) (i : FabId) : Bool := decide (i = s.ownId) || (s.gh.twinValid && decide (i = s.gh.identTwin))

/-- The twin's fabric identity: pairing is fixed by die number (R16). -/
def Part.twinId (s : Part) : FabId := s.ownId ^^^ 1#17

/-- The current role epoch of an identity answered for (R216). -/
def Part.epochOf (s : Part) (i : FabId) : W16 := if i = s.ownId then s.gh.epochOwn else s.gh.epochTwin

/-- The sender's view of an identity's role epoch (R216). -/
def Part.roleOf (s : Part) (i : FabId) : W16 := tabGet s.gh.roles i.toNat 0

def LaneGroup.queued (l : LaneGroup) : Nat := (l.queues.map List.length).foldl (· + ·) 0

/-- A lane group qualifies (R194 step 3). -/
def Part.qualifies (s : Part) (mask route g : Nat) : Bool :=
  mask.testBit g && route.testBit g && bitOf s.gh.lgEn g && !(s.lg g).down

/-- The choice among qualifying lane groups: active ones first, fewest flits queued, lowest number (R194 step 3). -/
def Part.pickLg (s : Part) (gs : List Nat) : Option Nat :=
  let act := gs.filter fun g => (s.lg g).active
  match (if act.isEmpty then gs else act) with
  | [] => none
  | g :: rest => some (rest.foldl (fun a b => if (s.lg b).queued < (s.lg a).queued then b else a) g)

/-- The route to an identity over the lane groups of a mask (R194); none is unroutable. An identity whose claim a link has brought is
reached over that link (R265). -/
def Part.route (s : Part) (dst : FabId) (mask : Nat) : Option Nat :=
  let r := tabGet s.gh.routes (idRoute dst) 0
  let gs := (List.range 8).filter (s.qualifies mask (fld r 0 8))
  let cs := gs.filter fun g => (s.lg g).honoured.contains dst
  if bitOf r 8 then s.pickLg (if cs.isEmpty then gs else cs) else none

/-- A chunk's lane group: the (c mod n)-th of LG_MASK, or the choice of R194 among the others (R190). -/
def Part.routeChunk (s : Part) (dst : FabId) (mask c : Nat) : Option Nat :=
  let gs := (List.range 8).filter mask.testBit
  let r := tabGet s.gh.routes (idRoute dst) 0
  let g := gs.getD (c % max 1 gs.length) 0
  let claimed := (List.range 8).any fun g => (s.lg g).honoured.contains dst
  if bitOf r 8 && !claimed && s.qualifies mask (fld r 0 8) g then some g else s.route dst mask

/-! ### Flits -/

/-- A byte stream in pieces of 240 bytes, the last padded with zeros (R199); an empty stream makes one flit. -/
def flitPieces : Nat → List Byte → List (List Byte)
  | 0, _ => []
  | n + 1, bs => if bs.length ≤ 240 then [bs ++ List.replicate (240 - bs.length) 0] else bs.take 240 :: flitPieces n (bs.drop 240)

def mkFlits (ftype : FType) (vl : Nat) (dst src : FabId) (repoch msgid : W16) (bytes : List Byte) : List Flit :=
  let ps := flitPieces (bytes.length / 240 + 1) bytes
  ps.zipIdx.map fun (p, i) =>
    { ftype := ftype, vl := vl, eom := decide (i + 1 = ps.length), dst := dst, src := src, repoch := repoch, msgid := msgid,
      fidx := i, payload := p }

/-- The flits of a message whose VERDICT follows: its last flit says so (R210). -/
def withVerdict (fs : List Flit) : List Flit := fs.map fun f => { f with vnext := f.eom }

/-- The virtual lane that may send next (R205): VL0, VL1, then VL2 to VL5 in turn; each needs a flit and a fabric credit, and none sends
between a message's last flit and its VERDICT (R210). -/
def LaneGroup.nextVl (l : LaneGroup) : Option Nat :=
  let ready (v : Nat) : Bool := !(l.queues.getD v []).isEmpty && decide (0 < l.credits.getD v 0) && (l.hold.getD v none).isNone
  ([0, 1] ++ (List.range 4).map fun i => 2 + (l.rrVl - 2 + i) % 4).find? ready

/-- The credit return that the next header bears (R203): a virtual lane with credits owed, and how many. -/
def LaneGroup.credOut (l : LaneGroup) : Nat × Nat :=
  match (List.range 6).find? fun i => decide (0 < l.owed.getD i 0) with
  | some i => (i, min 255 (l.owed.getD i 0))
  | none => (0, 0)

/-- A header goes out: its PCS credit is spent, the credits it returns are no longer owed, a request for low power is withdrawn (R56). -/
def LaneGroup.spend (l : LaneGroup) : LaneGroup :=
  let c := l.credOut
  { l with pcsCr := l.pcsCr - 1, lpReq := false, owed := l.owed.set c.1 (l.owed.getD c.1 0 - c.2) }

/-- The bits a LINK flit sets in its payload (R204, R265). -/
def LinkOut.bits : LinkOut → Nat
  | .init => 2 + (8 + 32 * 2 ^ 16 + 64 * 2 ^ 32 + 64 * 2 ^ 48 + 64 * 2 ^ 64 + 64 * 2 ^ 80) * 2 ^ 32
  | .retry r => 1 + r.toNat * 2 ^ 8
  | .credits c => 4 + (sumN (c.zipIdx.map fun (n, i) => n % 65536 * 2 ^ (16 * i))) * 2 ^ 128
  | .keepalive => 0
  | .claim k i => (k + i.toNat * 8) * 2 ^ 512

/-- The header of a LINK flit (R204): type and VL 0, EOM, LACK and the credit return as usual, the sender's own identity. -/
def Part.linkHeader (s : Part) (g : Nat) : BitVec 128 :=
  let l := s.lg g
  BitVec.ofNat 128 (2 ^ 7 + (l.rxSeq - 1).toNat * 2 ^ 20 + l.credOut.2 * 2 ^ 32 + l.credOut.1 * 2 ^ 40 + s.ownId.toNat * 2 ^ 61)

/-- One transmission of a lane group, where it can send (R53, R202, R203, R205): LINK flits first, none but INIT before the far end's
INIT; then flits to be resent; then new flits while the replay store of 128 has room. -/
def Part.pumpOne (s : Part) (g : Nat) : Option Part :=
  let l := s.lg g
  let t := s.now
  if !l.active || l.pcsCr = 0 || s.glob.fencedSelf then none
  else match (if l.initRx then l.linkq else (l.linkq.take 1).filter fun o => decide (o = .init)) with
    | o :: _ =>
      some ((s.onLg g fun l => { l.spend with linkq := l.linkq.drop 1 }).emit (.flit g (s.linkHeader g) (toBytes 240 o.bits)))
    | [] =>
      if !l.initRx || l.down then none
      else match l.again with
        | q :: rest =>
          match l.replay.find? fun r => decide (r.1 = q) with
          | none => some (s.onLg g fun l => { l with again := rest })
          | some r =>
            let h := r.2.header r.1 (l.rxSeq - 1) l.credOut.2 l.credOut.1
            some ((s.onLg g fun l => { l.spend with again := rest, lastSent := t }).emit (.flit g h r.2.payload))
        | [] =>
          if 128 ≤ l.replay.length then none
          else match l.nextVl with
            | none => none
            | some v =>
              match l.queues.getD v [] with
              | [] => none
              | f :: rest =>
                let h := f.header l.txSeq (l.rxSeq - 1) l.credOut.2 l.credOut.1
                some ((s.onLg g fun l =>
                  { l.spend with
                    queues := l.queues.set v rest
                    hold := if f.vnext then l.hold.set v (some (f.src, f.msgid)) else l.hold
                    credits := l.credits.set v (l.credits.getD v 0 - 1)
                    replay := l.replay ++ [(l.txSeq, f)]
                    txSeq := l.txSeq + 1
                    lackTime := if l.replay.isEmpty then t else l.lackTime
                    lastSent := t
                    rrVl := if 2 ≤ v then 2 + (v - 1) % 4 else l.rrVl }).emit (.flit g h f.payload))

/-- Send what credits and the replay store allow. -/
def Part.pump (g : Nat) : Nat → Part → Part
  | 0, s => s
  | n + 1, s =>
    match s.pumpOne g with
    | some s' => Part.pump g n s'
    | none => s

/-- Fabric credits that have changed go to the twin (R18). -/
def Part.mirrorFabric (s : Part) (g : Nat) (old : List Nat) : Part :=
  if (s.lg g).credits = old then s else s.mirror (.fabricCredits (Fin.ofNat 8 g) (s.lg g).credits)

def Part.pumpAll (s : Part) (g : Nat) : Part :=
  (s.pump g ((s.lg g).queued + (s.lg g).again.length + (s.lg g).linkq.length)).mirrorFabric g (s.lg g).credits

/-- A LINK flit is to go out (R204): a request for low power is withdrawn, a link in its low-power state woken (R56). -/
def Part.sendLink (s : Part) (g : Nat) (o : LinkOut) : Part :=
  let s := s.onLg g fun l => { l with linkq := l.linkq ++ [o], lpReq := false }
  (if (s.lg g).lowPower then s.emit (.wakeReq g) else s).pumpAll g

/-- A lane group has something to send: its clock is woken, a sleeping link too (R56, R194). -/
def Part.stirLane (s : Part) (g : Nat) : Part :=
  let s := s.wake (.lane (Fin.ofNat 8 g))
  (if (s.lg g).active then s else s.emit (.wakeReq g)).pumpAll g

/-- Flits enter a lane group's queues: a waiting low-power request is withdrawn, a sleeping link woken (R56, R194). -/
def Part.enqueue (s : Part) (g : Nat) (fs : List Flit) : Part :=
  match fs with
  | [] => s
  | f :: _ =>
    (s.onLg g fun l => { l with queues := l.queues.set f.vl (l.queues.getD f.vl [] ++ fs), lpReq := false }).stirLane g

/-- Put flits directly behind the last flit of a message on its virtual lane (R210), which then waits for nothing more. -/
def LaneGroup.behind (l : LaneGroup) (v : Nat) (k : FabId × W16) (fs : List Flit) : LaneGroup :=
  let q := l.queues.getD v []
  if l.hold.getD v none = some k then { l with hold := l.hold.set v none, queues := l.queues.set v (fs ++ q), lpReq := false }
  else
    let mine (f : Flit) : Bool := f.vnext && decide (f.src = k.1) && decide (f.msgid = k.2)
    if q.any mine then
      { l with queues := l.queues.set v (q.map fun f => if mine f then { f with vnext := false } :: fs else [f]).flatten, lpReq := false }
    else { l with queues := l.queues.set v (q ++ fs), lpReq := false }
def Part.enqueueBehind (s : Part) (g v : Nat) (k : FabId × W16) (fs : List Flit) : Part :=
  let s := s.onLg g fun l => l.behind v k fs
  if fs.isEmpty then s.pumpAll g else s.stirLane g

/-- The next message number of an identity (R197); the expiry of an earlier message of that number is forgotten (R212). -/
def Part.takeMsgid (s : Part) (src : FabId) : W16 × Part :=
  if src = s.ownId then
    (s.gh.nextMsg, s.onGh fun g => { g with nextMsg := g.nextMsg + 1, expired := g.expired.filter fun x => x.2 ≠ g.nextMsg })
  else (s.gh.nextMsgTwin, s.onGh fun g => { g with nextMsgTwin := g.nextMsgTwin + 1 })

/-- Where a message stands in the list of messages sent: numbers are counted per source identity (R197). -/
def Part.outKey (s : Part) (src : FabId) (msgid : W16) : Nat := if src = s.ownId then msgid.toNat else 65536 + msgid.toNat

/-- An ACK, NACK or CONTROL message on VL1 (R198, R205); one that no lane group can carry is dropped. -/
def Part.sendSmall (s : Part) (ftype : FType) (src dst : FabId) (body : List Byte) : Part :=
  match s.route dst 0xFF with
  | none => s
  | some g =>
    let m := s.takeMsgid src
    m.2.enqueue g (mkFlits ftype 1 dst src (s.roleOf dst) m.1 body)

/-- A CONTROL body (R273). -/
def controlBody (kind : Nat) (group : W16) (jseq : W32) (seq : W16) (chunk : W32) (rank : W16) (rest : List Byte) : List Byte :=
  toBytes 2 kind ++ toBytes 2 group.toNat ++ toBytes 4 jseq.toNat ++ toBytes 2 seq.toNat ++ toBytes 4 chunk.toNat
    ++ toBytes 2 rank.toNat ++ rest

/-- Send a CONTROL message from the own identity. -/
def Part.control (s : Part) (dst : FabId) (kind : Nat) (group : W16) (jseq : W32) (seq : W16) (chunk : W32) (rank : W16)
    (rest : List Byte) : Part :=
  s.sendSmall .control s.ownId dst (controlBody kind group jseq seq chunk rank rest)

/-! ### Ends of messages and transfers (R211, R212, R248) -/

/-- A transfer completes (R248): the first non-OK status, the event, the number freed; its tiles not yet sent are given up, and what is
still unacknowledged counts for no later transfer of the number. -/
def Part.xferEnd (s : Part) (x : Nat) (status : Nat) : Part :=
  match tabFind s.gh.xfers x with
  | none => s
  | some t =>
    let st := if t.status = 0#8 then status else t.status.toNat
    let mine (o : OutTile) : Bool := o.ftype != .getrsp && Mh.xfer o.hdr == x
    let s := s.each (s.gh.outbox.filter mine) fun s o => (s.release o.buf).release o.keepBuf
    let s := s.onGh fun g =>
      { g with
        xfers := tabErase g.xfers x
        outMsgs := (g.outMsgs.filter fun o => !(decide (o.2.ftype = .getreq) && decide (o.2.xfer.toNat = x))).map fun o =>
          if o.2.ftype ≠ .getrsp && o.2.ftype ≠ .tether && decide (o.2.xfer.toNat = x) then (o.1, { o.2 with counts := false }) else o
        srcJobs := g.srcJobs.filter fun j => !(j.ftype == .put && Mh.xfer j.hdr == x)
        outbox := g.outbox.filter fun o => !mine o }
    (((s.worked .gh).signalIf (Xb.evtEn t.blk) t.seq (Xb.event t.blk) (evXfer st x t.done)).retestFences).mirror (.transferGone (BitVec.ofNat 8 x))

/-- One message of a transfer is acknowledged or has landed; the last one completes it. -/
def Part.xferCount (s : Part) (x : Nat) (status : Byte) : Part :=
  match tabFind s.gh.xfers x with
  | none => s
  | some t =>
    if status ≠ 0#8 then s.xferEnd x status.toNat
    else
      let s := s.onGh fun g => { g with xfers := tabInsert g.xfers x { t with done := t.done + 1 } }
      if t.expected ≤ t.done + 1 then s.xferEnd x 0 else s.mirror (.transfer (BitVec.ofNat 8 x) t.blk (t.done + 1))

/-- A message of ours has ended (R211): buffers back, the list mirrored (R18), the transfer counted; a verdict it awaited will not come. -/
def Part.msgEnd (s : Part) (msgid : W16) (status : Byte) : Part :=
  match tabFind s.gh.outMsgs msgid.toNat with
  | none => s
  | some m =>
    let s := ((s.worked .gh).release m.keepBuf).release m.buf
    let s := s.onGh fun g => { g with outMsgs := tabErase g.outMsgs msgid.toNat }
    let s := if m.expectsAck then s.mirror (.acked msgid) else s
    let s := if m.verdict = .awaited then s.enqueueBehind m.lg m.vl (s.ownId, msgid) [] else s
    if m.ftype = .getrsp || !m.counts then s
    else if m.ftype = .getreq then (if status = 0#8 then s else s.xferEnd m.xfer.toNat status.toNat)
    else s.xferCount m.xfer.toNat status

/-- The ACK window expires (R212): ACK_TIMEOUT, a signal to K0, which wakes the firmware complex (R313), trace point 0x0403. -/
def Part.ackTimeout (s : Part) (msgid : W16) : Part :=
  match tabFind s.gh.outMsgs msgid.toNat with
  | none => s
  | some m =>
    (((s.wake .fwc).msgEnd msgid 0x21).onGh fun g => { g with expired := (m.dst, msgid) :: g.expired }).guest 0 2 0x0403
      [BitVec.ofNat 32 m.xfer.toNat, BitVec.ofNat 32 msgid.toNat]

/-- The ACK window of a message has ended (R137, R212). -/
def Part.ackLate (s : Part) (m : OutMsg) : Bool :=
  match m.acceptedAt with
  | some t => s.ended t s.gh.ackTmo.toNat
  | none => false

/-- An ACK of `by'` arrives (R211, R212): it answers the message of that number that went there. An ACK for a message of the taken-over twin's,
whose numbers are its own (R197), ends none of ours that went elsewhere (log entry 50). -/
def Part.takeAck (s : Part) (by' : FabId) (msgid : W16) (status : Byte) : Part :=
  if s.gh.expired.contains (by', msgid) then
    s.onGh fun g => { g with ackLateCnt := satAdd g.ackLateCnt 1, expired := g.expired.filter fun x => x ≠ (by', msgid) }
  else match tabFind s.gh.outMsgs msgid.toNat with
    | none => s
    | some m =>
      if m.dst ≠ by' then s
      else if m.expectsAck && s.ackLate m then
        (s.ackTimeout msgid).onGh fun g =>
          { g with ackLateCnt := satAdd g.ackLateCnt 1, expired := g.expired.filter fun x => x ≠ (by', msgid) }
      else s.msgEnd msgid status

/-- Send an ACK (R211): MSGID, XFER, STATUS; to the part itself where it is the sender (R194 step 1). Numbers are counted per source
identity (R197): an identity taken over has sent no message that awaits one. -/
def Part.sendAck (s : Part) (self dst : FabId) (msgid : W16) (xfer : Nat) (status : Nat) : Part :=
  if dst = s.ownId then s.takeAck self msgid (BitVec.ofNat 8 status)
  else if s.answers dst then s
  else s.sendSmall .ack self dst (toBytes 2 msgid.toNat ++ toBytes 1 xfer ++ toBytes 1 status)

/-- A chain stall at a chunk that the part sent is reported to its group's manager (R259). -/
def Part.stallOf (s : Part) (k : Nat × Nat × Nat) (cause : Nat) : Part :=
  match s.ctxOf k.1 k.2.1 with
  | none => s
  | some x =>
    s.tellManager (if k.1 = 0 then s.ownId else s.gh.identTwin) (Tb.group x.blk) 0x10 (BitVec.ofNat 16 (Tb.seq x.blk)) k.2.2
      (Tb.rank x.blk) cause

/-- The role table follows a NACK with a newer epoch (R218); K0 writes it, at its return where it is down (R302). -/
def Part.learnRole (s : Part) (i : FabId) (epoch : W16) : Part :=
  if newer16 epoch (s.roleOf i) then
    if s.mb.runs 0 then (s.onGh fun g => { g with roles := tabSet g.roles i.toNat epoch 0 }).mirror (.roleEntry i epoch)
    else s.onGh fun g => { g with roleLate := g.roleLate ++ [(i, epoch)] }
  else s

/-- A message of ours to `by'` was refused for its role epoch (R218): a chunk is a stall, any other completes with the NACK's status,
unless its window has ended first (R138, R212). A NACK does not name its message's source: of the own number and the taken-over twin's, the
one whose message went to the identity that refuses (log entry 50). -/
def Part.nacked (s : Part) (by' : FabId) (msgid : W16) (status : Byte) : Part :=
  match [msgid.toNat, 65536 + msgid.toNat].findSome? fun k =>
      (tabFind s.gh.outMsgs k).bind fun o => if o.dst = by' then some (k, o) else none with
  | none => s
  | some (k, o) =>
    if o.expectsAck && s.ackLate o then s.ackTimeout msgid
    else if o.ftype = .tether then
      let s := (s.release o.buf).onGh fun g => { g with outMsgs := tabErase g.outMsgs k }
      match o.chunk with
      | some c => s.stallOf c 3
      | none => s
    else s.msgEnd msgid status

/-- A NACK arrives (R218). -/
def Part.takeNack (s : Part) (src : FabId) (msgid : W16) (status : Byte) (epoch : W16) : Part :=
  ((s.onGh fun g => { g with nackRxCnt := satAdd g.nackRxCnt 1 }).learnRole src epoch).nacked src msgid status

/-- Send a NACK (R218): MSGID, XFER, STATUS and the current epoch; to the part itself where it is the sender (R194 step 1). -/
def Part.sendNack (s : Part) (self dst : FabId) (msgid : W16) (xfer : Nat) (status : Nat) : Part :=
  if s.answers dst then s.takeNack self msgid (BitVec.ofNat 8 status) (s.epochOf self)
  else s.sendSmall .nack self dst
    (toBytes 2 msgid.toNat ++ toBytes 1 xfer ++ toBytes 1 status ++ toBytes 2 (s.epochOf self).toNat)

/-- A lane group is declared down (R202, R286): the store is discarded, its messages complete LINK_DOWN, chunks among them are
reported (R259), K0, whose domain wakes (R313), and the interrupt hear of it. -/
def Part.lgDown (s : Part) (g : Nat) : Part :=
  let ids := ((s.lg g).replay.filter fun r => r.2.ftype ≠ .ack && r.2.ftype ≠ .nack && r.2.ftype ≠ .control).map
    fun r => s.outKey r.2.src r.2.msgid
  let lost := (s.lg g).replay.map fun r => (r.2.src, r.2.msgid)
  let t := s.now
  let s := s.onLg g fun l =>
    { l with
      down := true
      replay := []
      again := []
      resends := 0
      retryAt := t
      hold := l.hold.map fun h => if lost.any (fun k => h == some k) then none else h
      queues := l.queues.map fun q => q.filter fun f => !lost.contains (f.src, f.msgid) }
  let s := s.onIrq fun i => { i with ghDown := setBitAt i.ghDown g }
  let s := (s.wake .fwc).guest 0 2 0x0401 [BitVec.ofNat 32 g]
  s.each ids.eraseDups fun s m =>
    match tabFind s.gh.outMsgs m with
    | some o =>
      match o.chunk with
      | some k => ((s.release o.buf).onGh fun g => { g with outMsgs := tabErase g.outMsgs m }).stallOf k 2
      | none => s.msgEnd (BitVec.ofNat 16 m) 0x22
    | none => s

end Sys2Proof.Machine
end

