-- ==== Sys2Proof/Machine/Landing.lean ====
section
/-! DEFINITION. The Gatehouse as a receiver (R195, R201, R206 to R211, R214, R218) and as the sender of data (R135, R207, R210,
R214). -/

namespace Sys2Proof.Machine

/-! ### Units of a message -/

/-- The first `n` units of a stream's sign vector (R97). -/
def Part.signVec (s : Part) (e : StreamEntry) (n : Nat) : List (BitVec 128) :=
  if e.signEn then (List.range n).map fun i => tabGet s.ssu.signs (e.signBase.toNat + i) 0 else []
/-- The sign units of a row of L tiles (R97). -/
def Part.signUnits (s : Part) (e : StreamEntry) : List (BitVec 128) := s.signVec e e.tiles
/-- A rotating conversion of `n` column tiles whose sign vector would run past the end of the store (R97). -/
def signsPast (e : StreamEntry) (n : Nat) : Bool := decide (e.rotBlock ≠ 0) && e.signEn && decide (16384 < e.signBase.toNat + n)
/-- The mapping that R23, R74 and R95 refuse: asymmetric of any class but activations, or into a Ledger-scaled format that bears no
zero point. -/
def mapBad (e : StreamEntry) (f : Fmt) : Bool :=
  e.map && (decide (e.cls ≠ 0) || (f.isLedger && !(f == .int8 || f == .uint8)))

/-- A receiver's smoothing divisors (R113). -/
def smoothVals (stream : Nat) (e : StreamEntry) (c0 n : Nat) : List Val :=
  (List.range n).map fun j => ofFp32 (Config.smoothDiv stream e.epoch (c0 + j))

/-- The units of a message (R199, R201). -/
def msgUnits (h : BitVec 256) (body : List Byte) : List LUnit :=
  readUnits ((Fmt.ofCode (Mh.wfmt h)).map Fmt.width |>.getD 8) (Mh.unitElems h) (Mh.rows h) body

/-- R201's checks of a message header alone; a RESEND bears the landing format of its original. R201 refuses MX codes in WFMT; that FP16 and the
running-sum formats are refused with them is R244's, whose WFMT is a Ledger-scaled code, FP32 or BF16 (DEDUCED, log entry 58). -/
def hdrForm (resend : Bool) (h : BitVec 256) : Bool :=
  match Fmt.ofCode (Mh.wfmt h), Fmt.ofCode (Mh.lfmt h) with
  | some w, some l =>
    !Mh.reservedSet h && !w.isMx && !w.isRun && decide (w ≠ .fp16)
      && (l == .fp32 || l == .bf16 || l == w || (resend && l.isLedger))
      && decide (Mh.body h = Mh.rows h * (8 + Mh.unitElems h * w.width / 8))
  | _, _ => false
/-- R201's checks of a message. -/
def hdrOk (resend : Bool) (h : BitVec 256) (body : List Byte) : Bool := hdrForm resend h && decide (body.length = Mh.body h)

/-- The message lands as it is, with its records (R207): LFMT = WFMT and a Ledger-scaled format; of a wide format only the rows written
wide in place of one, which their records' WIDE shows (R83), with the LEDGER offset that a narrow landing bears (R200, log entry 11). -/
def landsNarrow (h : BitVec 256) (us : List LUnit) : Bool :=
  decide (Mh.lfmt h = Mh.wfmt h)
    && (((Fmt.ofCode (Mh.wfmt h)).map Fmt.isLedger |>.getD false) || (us.any (fun u => u.led.wide) && decide (Mh.ledger h ≠ 0)))

/-- What a landing converts with: the stream's entry and its sign vector; those that the open GET copied where the message answers one
(R96). -/
def Part.inSet (s : Part) (t : FType) (h : BitVec 256) : StreamEntry × List (BitVec 128) :=
  let now := (s.stream (Mh.stream h), s.signVec (s.stream (Mh.stream h)) ((Mh.ctile h + Mh.utiles h) / 2 * 2 + 2))
  match t with
  | .getrsp => match tabFind s.gh.xfers (Mh.xfer h) with | some x => (x.se, x.signs) | none => now
  | _ => now

/-- A unit as it is taken in: a malformed record is poisoned, all else kept (R81), and counts in the Ledger error counter. -/
def unitIn (e : StreamEntry) (h : BitVec 256) (u : LUnit) : LUnit × Bool :=
  let bad := u.led.malformed ((Fmt.ofCode (Mh.wfmt h)).getD .bf16) (some e.cls.toNat)
  (if bad then { u with led := { u.led with poison := true } } else u, bad)

/-- The values of a message's units as they stand on the wire. -/
def wireVals (e : StreamEntry) (h : BitVec 256) (us : List LUnit) : List (List Val) :=
  us.map fun u => decodeUnit ((Fmt.ofCode (Mh.wfmt h)).getD .bf16) (Mh.unitElems h) (unitIn e h u).1

/-- Row r of the other message of a pair of tiles (R111), where it has come. -/
def Landing.half (l : Landing) (e : StreamEntry) (r : Nat) : OtherHalf :=
  match l.other with
  | none => .absent
  | some m =>
    match (wireVals e m.1 (msgUnits m.1 m.2))[r]? with
    | some v => if Mh.ctile l.hdr % 2 = 0 then .upper v else .lower v
    | none => .absent

/-- One unit widened by the inverse series (R113, R114): its bytes and whether the Ledger error counter is due, once, whether its record
is malformed (R81), its settings unmatched (R114), a divisor invalid (R113), or several of these (the rules do not say how often
one unit counts; DESIGN CHOICE, log entry 48). -/
def Part.widen (s : Part) (l : Landing) (lf : Fmt) (r : Nat) (u0 : LUnit) : List Byte × Bool :=
  let h := l.hdr
  let e := s.inSet l.ftype h
  let wf := (Fmt.ofCode (Mh.wfmt h)).getD .bf16
  let c0 := Mh.ctile h * 128
  let u := unitIn e.1 h u0
  let o := inverseVals e.1 e.2 (smoothVals (Mh.stream h) e.1 c0 (Mh.unitElems h)) c0 false (l.half e.1 r) u.1.led
    (decodeUnit wf (Mh.unitElems h) u.1)
  (deliverWide lf o, u.2 || o.ledgerErr)

/-- One re-sent unit narrowed again at a live scale (R210): codes, record with MISFIT. A zero point is borne only where R23, R74 and R95
let the stream map so. -/
def renarrow (e : StreamEntry) (h : BitVec 256) (lf : Fmt) (u : LUnit) : LUnit :=
  let map := e.map && !mapBad e lf
  let vals := decodeUnit .bf16 (Mh.unitElems h) u
  (narrowUnit lf map (liveScale lf { e with map := map } map vals) { u.led with misfit := true, wide := false } vals).1

/-- The writes of a landing: (offset, bytes) (R207, R210), and how many units count in the Ledger error counter. -/
def Part.landWrites (s : Part) (resend : Bool) (l : Landing) : List (Nat × List Byte) × Nat :=
  let h := l.hdr
  let e := (s.inSet l.ftype h).1
  let us := msgUnits h l.body
  let at' (r : Nat) : Nat := Mh.data h + r * Mh.pitch h * 64
  let lf := (Fmt.ofCode (Mh.lfmt h)).getD .bf16
  let bads := (us.filter fun u => (unitIn e h u).2).length
  let narrow (ws : List LUnit) : List (Nat × List Byte) :=
    (ws.zipIdx.map fun (u, r) => (at' r, u.els)) ++ [(Mh.ledger h, (ws.map fun u => toBytes 8 u.led.word.toNat).flatten)]
  if resend && lf.isLedger then (narrow (us.map fun u => renarrow e h lf (unitIn e h u).1), bads)
  else if landsNarrow h us then (narrow (us.map fun u => (unitIn e h u).1), bads)
  else
    let ws := us.zipIdx.map fun (u, r) => s.widen l lf r u
    (ws.zipIdx.map fun (w, r) => (at' r, w.1), (ws.filter Prod.snd).length)

/-- An access [lo, hi) lies wholly within one enabled export window of the identity addressed (R195). -/
def Part.windowOk (s : Part) (id : FabId) (wr : Bool) (lo hi : Nat) : Bool :=
  let b := if id = s.ownId then 0 else 16
  (List.range 16).any fun i =>
    let w := tabGet s.gh.wins (b + i) .reset
    bitOf w.base 0 && (if wr then bitOf w.base 2 else bitOf w.base 1) && decide (fld w.base 6 41 * 64 ≤ lo)
      && decide (hi ≤ fld w.limit 6 41 * 64)

def extentLo (ws : List (Nat × List Byte)) : Nat :=
  match ws with
  | [] => 0
  | w :: rest => rest.foldl (fun a x => min a x.1) w.1
def extentHi (ws : List (Nat × List Byte)) : Nat := ws.foldl (fun a x => max a (x.1 + x.2.length)) 0

/-! ### Finishing -/

/-- The GETREQ that a response answers: the responder copies the header that the GETREQ bore (R200), so its place and rows say which. A
response that answers none counts for nothing. -/
def Part.getreqOf (s : Part) (h : BitVec 256) : Option Nat :=
  (s.gh.outMsgs.find? fun o =>
    decide (o.2.ftype = .getreq) && decide (o.2.xfer.toNat = Mh.xfer h)
      && (decide (Mh.data o.2.hdr = Mh.data h) || decide (Mh.lfmt o.2.hdr ≠ Mh.lfmt h)) && decide (Mh.ctile o.2.hdr = Mh.ctile h)
      && decide (Mh.tidx o.2.hdr = Mh.tidx h) && decide (Mh.rows o.2.hdr = Mh.rows h)).map Prod.fst

/-- A response to a GETREQ has landed (R215, R248). -/
def Part.getLanded (s : Part) (h : BitVec 256) (status : Nat) : Part :=
  match s.getreqOf h with
  | some k => (s.onGh fun g => { g with outMsgs := tabErase g.outMsgs k }).xferCount (Mh.xfer h) (BitVec.ofNat 8 status)
  | none => s

/-- A landing has ended (R211, R215): its buffer back, the ACK, and a GET's count. -/
def Part.landEnd (s : Part) (l : Landing) (status : Nat) : Part :=
  let s := (s.worked .gh).release l.buf
  let s := s.onGh fun g => { g with landings := g.landings.filter fun x => x.id ≠ l.id }
  let s := s.sendAck l.dst l.src l.msgid (Mh.xfer l.hdr) status
  if l.ftype = .getrsp && decide (l.dst = s.ownId) then s.getLanded l.hdr status else s

/-- Refusal of an arriving tile by a fenced port (R24, R208): counted, told to K1; its buffer goes back (R22). -/
def Part.refuseTile (s : Part) (l : Landing) : Part :=
  let d := Mh.dpn l.hdr
  let s := s.onDp d fun p => { p with abortCnt := satAdd p.abortCnt 1 }
  let s := s.onGh fun g => { g with refusedTiles := g.refusedTiles + 1 }
  (s.report (BitVec.ofNat 8 d) 0 1).landEnd l 4

/-- The tile of an arrive-and-start message is complete in DPN's buffer (R208): the operand queue, the ACK; a port fenced meanwhile
refuses it (R24). A tile of fewer than 128 rows delivers its A rows and no more: R47 speaks of rows 0 to 127 and of no shorter
tile (DESIGN CHOICE, log entry 50). -/
def Part.placeTile (s : Part) (l : Landing) : Part :=
  if (s.dp (Mh.dpn l.hdr)).fenced then s.refuseTile l
  else
  let ws := (msgUnits l.hdr l.body).zipIdx.map fun (u, r) => s.widen l .bf16 r u
  let s := s.ledgerErr (ws.filter Prod.snd).length
  let d := Mh.dpn l.hdr
  let tile : OpsTile :=
    { tag := BitVec.ofNat 16 (Mh.opsTag l.hdr), tidx := BitVec.ofNat 12 (Mh.tidx l.hdr), rows := ws.map Prod.fst, next := 0,
      buf := l.buf }
  let s := (s.onDp d fun p => { p with ops := p.ops ++ [tile] }).wake (quadOf d)
  s.landEnd { l with buf := none } 0

/-- A GETRSP lands arrive-and-start when the transfer says so (R198, R208). -/
def Part.arrives (s : Part) (t : FType) (h : BitVec 256) : Bool :=
  match t with
  | .arrive => true
  | .getrsp => match tabFind s.gh.xfers (Mh.xfer h) with | some x => Xb.arr x.blk | none => false
  | _ => false

/-- The buffer of a message: the one its flit 0 asked for, or a new one. -/
def Part.useBuf (s : Part) (pre : Option Nat) (requester consumer credits : Nat) : Nat × Part :=
  match pre with
  | some b => (b, s)
  | none => s.larderReq requester consumer credits

/-- Why a landing in die memory is refused (R195, R211): die memory of a failed twin, or no export window. -/
def Part.landRefusal (s : Part) (l : Landing) (ws : List (Nat × List Byte)) : Option Nat :=
  if l.dst ≠ s.ownId then some 3
  else if l.ftype ≠ .getrsp && !s.windowOk l.dst true (extentLo ws) (extentHi ws) then some 1
  else none

/-- Land a message that waits for nothing more (R195, R207, R208). `pre` is a buffer that its flit 0 asked for. A tile that arrives and starts at a
taken-over twin's identity goes to the survivor's own drain port DPN and ends with status OK: R195 and R268 speak of the twin's die memory
alone (DESIGN CHOICE, log entry 50). -/
def Part.landNow (s : Part) (l : Landing) (resend : Bool) (pre : Option Nat) : Part :=
  if s.arrives l.ftype l.hdr then
    if (s.dp (Mh.dpn l.hdr)).fenced then (s.release pre).refuseTile l
    else
      let s := s.release l.buf
      let r := s.useBuf pre 72 (Mh.dpn l.hdr) 32
      let l := { l with buf := some r.1, waitBuf := true, waitVerdict := false, waitResend := false }
      let s := r.2.onGh fun g => { g with landings := (g.landings.filter fun x => x.id ≠ l.id) ++ [l] }
      if s.granted r.1 then s.placeTile l else s
  else
    let s := s.release pre
    let ws := s.landWrites resend l
    match s.landRefusal l ws.1 with
    | some status => s.landEnd l status
    | none =>
      let s := s.ledgerErr ws.2
      let due := sumN (ws.1.map fun w => writePieces w.1 w.2.length)
      let l := { l with nocDue := due, started := true, waitVerdict := false, waitResend := false }
      let s := s.onGh fun g => { g with landings := (g.landings.filter fun x => x.id ≠ l.id) ++ [l] }
      s.each ws.1 fun s w => s.nocWrite 9 w.1 w.2 (.landing l.id)

/-- The units of a message are halves of 256-element blocks, made with the other tile of a pair (R111, R154), and it widens them: it
needs the message with the other tile. -/
def Part.needsHalf (s : Part) (l : Landing) (resend : Bool) : Bool :=
  let e := (s.inSet l.ftype l.hdr).1
  let us := msgUnits l.hdr l.body
  let lf := (Fmt.ofCode (Mh.lfmt l.hdr)).getD .bf16
  decide (e.rotBlock = 256) && decide (Mh.unitElems l.hdr = 128) && l.other.isNone
    && us.any (fun u => u.led.rotated && !mismatch e (unitIn e l.hdr u).1.led)
    && (if s.arrives l.ftype l.hdr then !(s.dp (Mh.dpn l.hdr)).fenced
        else !(resend && lf.isLedger) && !landsNarrow l.hdr us && (s.landRefusal l (s.landWrites resend l).1).isNone)

/-- The landing of the other tile of a pair (R111), where it waits: of the same sender, transfer, stream and tile row. -/
def Part.otherHalf (s : Part) (l : Landing) : Option Landing :=
  let h := l.hdr
  s.gh.landings.find? fun p =>
    p.waitHalf && decide (p.src = l.src) && decide (p.dst = l.dst) && decide (Mh.xfer p.hdr = Mh.xfer h)
      && decide (Mh.stream p.hdr = Mh.stream h) && decide (Mh.rows p.hdr = Mh.rows h)
      && decide (Mh.ctile p.hdr / 2 = Mh.ctile h / 2) && decide (Mh.ctile p.hdr ≠ Mh.ctile h)
      && decide ((Mh.tidx p.hdr + Mh.ctile h) % 4096 = (Mh.tidx h + Mh.ctile p.hdr) % 4096)

/-- Land a message, or wait for the other tile of its pair and land both (R111, R113). The rules say neither that the receiver waits nor
for how long: it does, within R206's window, and lands alone at its end (DESIGN CHOICE, log entry 12). -/
def Part.land (s : Part) (l : Landing) (resend : Bool) (pre : Option Nat) : Part :=
  if s.needsHalf l resend then
    match s.otherHalf l with
    | some p =>
      (s.landNow { p with waitHalf := false, other := some (l.hdr, l.body) } false none).landNow
        { l with other := some (p.hdr, p.body) } resend pre
    | none =>
      let r := match l.buf with
        | some b => (b, s.release pre)
        | none => s.useBuf pre 72 72 ((l.body.length + 1023) / 1024)
      let l := { l with buf := some r.1, waitHalf := true, waitVerdict := false, waitResend := false, since := s.now }
      r.2.onGh fun g => { g with landings := (g.landings.filter fun x => x.id ≠ l.id) ++ [l] }
  else s.landNow l resend pre

/-- A whole, accepted message of types SEND, ARRIVE, PUT or GETRSP (R201, R207 to R209), whose last flit came at `last`. A local message
came on no lane group (R194 step 1). -/
def Part.acceptData (s : Part) (t : FType) (m : RxMsg) (pre : Option Nat) (last : Nat) : Part :=
  if !hdrOk false m.hdr m.body || (s.arrives t m.hdr && decide (Mh.lfmt m.hdr ≠ 2)) then
    ((s.release pre).onGh fun g => { g with badFlitCnt := satAdd g.badFlitCnt 1 }).sendAck m.dst m.src m.msgid (Mh.xfer m.hdr) 5
  else
    let l : Landing :=
      { id := s.nextId, src := m.src, dst := m.dst, lg := if s.answers m.src then 8 else m.lg.val, msgid := m.msgid, ftype := t,
        hdr := m.hdr, body := m.body, buf := none, waitBuf := false, waitVerdict := false, waitResend := false, since := last, nocDue := 0, nocErr := false,
        started := false }
    let s : Part := { s with nextId := s.nextId + 1 }
    if Mh.vreq m.hdr then
      let r := s.useBuf pre 72 72 ((m.body.length + 1023) / 1024)
      r.2.onGh fun g => { g with landings := g.landings ++ [{ l with buf := some r.1, waitVerdict := true }] }
    else s.land l false pre

/-- The landing of a message that waits for its verdict or its re-send. -/
def Part.findLanding (s : Part) (src : FabId) (msgid : W16) : Option Landing :=
  s.gh.landings.find? fun l => decide (l.src = src) && decide (l.msgid = msgid) && (l.waitVerdict || l.waitResend)

/-- A message whose wait of R206 has ended is discarded. -/
def Part.dropLanding (s : Part) (l : Landing) : Part :=
  (s.release l.buf).onGh fun g =>
    { g with landings := g.landings.filter (fun x => x.id ≠ l.id), msgDropCnt := satAdd g.msgDropCnt 1 }

/-- The verdict of a landing, given at `at'` (R135 rule 4, R210). -/
def Part.verdictIn (s : Part) (l : Landing) (misfit : Bool) (at' : Nat) : Part :=
  if misfit then
    let l' := { l with waitVerdict := false, waitResend := true, since := at', body := [], buf := none }
    (s.release l.buf).onGh fun g => { g with landings := g.landings.map fun x => if x.id = l.id then l' else x }
  else s.land l false none

/-- A verdict arrives, within the window that its message's last flit opened (R206, R210). -/
def Part.takeVerdict (s : Part) (src : FabId) (msgid : W16) (misfit : Bool) : Part :=
  match s.findLanding src msgid with
  | none => s
  | some l =>
    if !l.waitVerdict then s
    else if s.ended l.since s.gh.msgTmo.toNat then s.dropLanding l
    else s.verdictIn l misfit s.now

/-- The RESEND of a landing (R210); its landing format is its original's (R201). -/
def Part.resendIn (s : Part) (l : Landing) (m : RxMsg) : Part :=
    if !hdrOk true m.hdr m.body || decide (Mh.wfmt m.hdr ≠ 2) || decide (Mh.lfmt m.hdr ≠ Mh.lfmt l.hdr) then
      ((s.onGh fun g => { g with badFlitCnt := satAdd g.badFlitCnt 1 }).landEnd l 5)
    else s.land { l with hdr := m.hdr, body := m.body } true none

/-- A RESEND arrives whole (R210), within its window (R206). -/
def Part.takeResend (s : Part) (m : RxMsg) : Part :=
  match s.findLanding m.src m.msgid with
  | none => s
  | some l =>
    if !l.waitResend then s
    else if s.ended l.since s.gh.msgTmo.toNat then s.dropLanding l
    else s.resendIn l m

/-- A narrowing whose rotation runs over the tiles 2k and 2k + 1 of a row (R111): it reads both. -/
def srcPair (e : StreamEntry) (wf : Fmt) : Bool := wf.isLedger && decide (e.rotBlock = 256)
/-- Elements that a source read of one row brings. -/
def srcWidth (e : StreamEntry) (wf : Fmt) : Nat := if srcPair e wf then 256 else 128

/-- The source reads of a tile, row by row (R214 step 1), each in whole lines (R50). -/
def Part.startSource (s : Part) (j : SrcJob) : Part :=
  let s : Part := { s with nextId := s.nextId + 1 }
  let s := s.onGh fun g => { g with srcJobs := g.srcJobs ++ [j] }
  s.each (List.range j.rows) fun s r =>
    s.nocRead 8 ((j.off + r * j.pitch) / 64 * 64) ((j.off % 64 + srcWidth j.se j.wfmt * (j.sfmt.width / 8) + 63) / 64 * 64) (.source j.id r)

/-- A GETREQ (R200, R201, R214): its stream (R23, R97, R209), the window, then the source reads of its tile. The responder knows by
Config.landsAtPort whether its response lands arrive-and-start, of which the GETREQ has no field (log entry 50). -/
def Part.acceptGetreq (s : Part) (m : RxMsg) : Part :=
  let h := m.hdr
  let rsp := BitVec.ofNat 256 (ofBytes (m.body.take 32))
  let e := s.stream (Gq.stream h)
  let sz := if Gq.sfmt h = 0 then 4 else 2
  let refuse (s : Part) (status : Nat) : Part := s.sendAck m.dst m.src m.msgid (Gq.xfer h) status
  match Fmt.ofCode (Gq.wfmt h) with
  | none => refuse (s.onGh fun g => { g with badFlitCnt := satAdd g.badFlitCnt 1 }) 5
  | some wf =>
    let back := if srcPair e wf then Mh.ctile rsp % 2 * 128 * sz else 0
    let off := Gq.off h - back
    let nt := if srcPair e wf then Mh.ctile rsp / 2 * 2 + 2 else Mh.ctile rsp + 1
    if (Gq.sfmt h ≠ 0 && Gq.sfmt h ≠ 2) || Gq.reservedSet h || m.body.length ≠ 32 || wf.isMx || wf.isRun || wf = .fp16 then
      refuse (s.onGh fun g => { g with badFlitCnt := satAdd g.badFlitCnt 1 }) 5
    else if m.dst ≠ s.ownId then refuse s 3
    else if Gq.off h < back || !s.windowOk m.dst false off (off + (Gq.rows h - 1) * Gq.pitch h * 64 + srcWidth e wf * sz) then refuse s 1
    else if mapBad e wf || e.smoothEn || (wf.isLedger && signsPast e nt) || (srcPair e wf && decide (e.tiles % 2 = 1)) then refuse s 5
    else
      let j : SrcJob :=
        { id := s.nextId, ftype := .getrsp, dst := m.src, lgmask := 0xFF, hdr := rsp, se := e, calIdx := 0, off := off,
          pitch := Gq.pitch h * 64, rows := Gq.rows h, sfmt := if Gq.sfmt h = 0 then .fp32 else .bf16, wfmt := wf, data := [],
          due := Gq.rows h, bad := [], src := m.dst, signs := s.signVec e nt, arr := Config.landsAtPort rsp,
          msgid := m.msgid, col := Mh.ctile rsp }
      s.startSource j

/-- A whole, accepted message, whose last flit came at `last`. -/
def Part.acceptMsg (s : Part) (t : FType) (m : RxMsg) (pre : Option Nat) (last : Nat) : Part :=
  match t with
  | .getreq => s.acceptGetreq m
  | _ => s.acceptData t m pre last

/-! ### Receive credits (R31, R203) -/

def addAt (l : List Nat) (v n : Nat) : List Nat := l.set v (l.getD v 0 + n)

/-- The virtual lane of a message (R198). -/
def Part.msgVl (s : Part) (t : FType) (h : BitVec 256) : Nat :=
  match t with | .send => 3 | .arrive => 4 | .getrsp => if s.arrives t h then 4 else 5 | _ => 5

/-- A message on this lane group and virtual lane waits for the Larder (R31). Those of the part to itself stand on none (R194 step 1). -/
def Part.vlWaits (s : Part) (g v : Nat) : Bool :=
  ((s.lg g).asms.any fun a => decide (a.vl = v) && !s.grantedOpt a.buf)
    || (s.gh.landings.any fun l => decide (l.lg = g) && !s.grantedOpt l.buf && decide (v = s.msgVl l.ftype l.hdr))
    || (decide (v = 2) && (s.ctxs.any (fun c => c.2.ins.any fun i => decide (i.lg = g) && !s.granted i.need)
      || s.twinCtxs.any fun c => c.2.ins.any fun i => decide (i.lg = g) && !s.granted i.need))

/-- A flit has left its receive buffer: its credit is owed, or held back while its virtual lane waits. -/
def Part.creditBack (s : Part) (g v : Nat) : Part :=
  if s.vlWaits g v then s.onLg g fun l => { l with withheld := addAt l.withheld v 1 }
  else s.onLg g fun l => { l with owed := addAt l.owed v 1 }

/-- Credits held back are owed once nothing on their virtual lane waits any more. -/
def Part.creditsFree (s : Part) : Part :=
  s.each (List.range 8) fun s g => s.each (List.range 6) fun s v =>
    let n := (s.lg g).withheld.getD v 0
    if n = 0 || s.vlWaits g v then s
    else s.onLg g fun l => { l with owed := addAt l.owed v n, withheld := l.withheld.set v 0 }

/-! ### Role epochs (R218) -/

/-- Quarantine (R218): the log, the count, trace point 0x0402 and the NACK. The epoch that the log and the trace point hold (R225, R312) is
the REPOCH of the message: the rules say no more than "epoch" (DESIGN CHOICE, log entry 50). -/
def Part.quarantine (s : Part) (hdr : BitVec 128) (src dst : FabId) (msgid : W16) (repoch : W16) (xfer status : Nat) : Part :=
  let t := s.now
  let s := s.onGh fun g =>
    { g with
      quar := tabInsert g.quar g.quarHead.toNat ⟨hdr, t, repoch, BitVec.ofNat 8 status⟩
      quarHead := g.quarHead + 1
      quarCnt := satAdd g.quarCnt 1 }
  let s := s.trace 0 0x0402 [BitVec.ofNat 32 src.toNat, BitVec.ofNat 32 repoch.toNat, BitVec.ofNat 32 status]
  s.sendNack dst src msgid xfer status

def Part.findHeld (s : Part) (src : FabId) (msgid : W16) : Option HeldMsg :=
  s.gh.helds.find? fun h => decide (h.src = src) && decide (h.msgid = msgid)
def Part.dropHeld (s : Part) (src : FabId) (msgid : W16) : Part :=
  s.onGh fun g => { g with helds := g.helds.filter fun h => !(decide (h.src = src) && decide (h.msgid = msgid)) }
def Part.setHeld (s : Part) (h : HeldMsg) : Part :=
  s.onGh fun g =>
    { g with helds := g.helds.map fun x => if decide (x.src = h.src) && decide (x.msgid = h.msgid) then h else x }

/-- A held message that has arrived whole waits for its verdict, or after a misfit for its RESEND. -/
def HeldMsg.awaits (h : HeldMsg) : Bool :=
  match h.msg with
  | some (_, m) => Mh.vreq m.hdr && (match h.verdict with | some v => v.1 && h.resend.isNone | none => true)
  | none => false

/-- A held message whose window of R206 has ended without its verdict or its RESEND is discarded. -/
def Part.expireHeld (s : Part) (src : FabId) (msgid : W16) : Part :=
  match s.findHeld src msgid with
  | some h =>
    if h.awaits && s.ended h.last s.gh.msgTmo.toNat then
      (s.dropHeld src msgid).onGh fun y => { y with msgDropCnt := satAdd y.msgDropCnt 1 }
    else s
  | none => s

/-- Change the entry of an arriving message. -/
def Part.onAsm (s : Part) (g : Nat) (src : FabId) (msgid : W16) (f : RxAsm → RxAsm) : Part :=
  s.onLg g fun l =>
    { l with asms := l.asms.map fun a => if decide (a.src = src) && decide (a.msgid = msgid) then f a else a }
def Part.findAsm (s : Part) (g : Nat) (src : FabId) (msgid : W16) : Option RxAsm :=
  (s.lg g).asms.find? fun a => decide (a.src = src) && decide (a.msgid = msgid)
/-- The message is no longer arriving; the buffer its flit 0 asked for. -/
def Part.claimAsm (s : Part) (g : Nat) (src : FabId) (msgid : W16) : Option Nat × Part :=
  ((s.findAsm g src msgid).bind fun a => a.buf,
    s.onLg g fun l => { l with asms := l.asms.filter fun a => !(decide (a.src = src) && decide (a.msgid = msgid)) })
/-- The same, its buffer released (R206). -/
def Part.dropAsm (s : Part) (g : Nat) (src : FabId) (msgid : W16) : Part :=
  let r := s.claimAsm g src msgid
  if r.1.isSome then (r.2.release r.1).creditsFree else r.2

/-- A held message is quarantined (R218). -/
def Part.heldOut (s : Part) (h : HeldMsg) (status : Nat) : Part :=
  ((s.dropHeld h.src h.msgid).onAsm h.lg.val h.src h.msgid fun a => { a with fate := .quarantined }).quarantine h.hdr h.src
    h.dst h.msgid h.repoch h.xfer.toNat status

/-- The comparison of R218 for a message to an identity, and the status of its NACK where it is quarantined. -/
def Part.fateNow (s : Part) (repoch : W16) (dst : FabId) : RxFate × Nat :=
  let e := s.epochOf dst
  if repoch = e then (.accepted, 0)
  else if newer16 repoch e then (if s.gh.helds.length < 32 then (.held, 0) else (.quarantined, 0x12))
  else (.quarantined, 0x10)

/-- A message is held from now on (R218). -/
def Part.hold (s : Part) (h : HeldMsg) : Part := s.onGh fun y => { y with helds := y.helds ++ [h], holdCnt := satAdd y.holdCnt 1 }

/-- The entry of a message that has arrived whole: what R218 made of it, accepted where its flits were not seen. -/
def Part.fateOf (s : Part) (g : Nat) (src : FabId) (msgid : W16) : RxFate :=
  match s.findAsm g src msgid with
  | some a => a.fate
  | none => .accepted

/-- A message row: quarantined messages are discarded, held ones kept, accepted ones carried out (R218). -/
def Part.takeMsg (s : Part) (t : FType) (m : RxMsg) : Part :=
  let last := match s.findAsm m.lg.val m.src m.msgid with | some a => a.last | none => s.now
  match s.fateOf m.lg.val m.src m.msgid with
  | .quarantined => s.dropAsm m.lg.val m.src m.msgid
  | .held =>
    let s' := s.dropAsm m.lg.val m.src m.msgid
    match s.findHeld m.src m.msgid with
    | some h => s'.setHeld { h with msg := some (t, m), last := last }
    | none => s'
  | .accepted =>
    let r := s.claimAsm m.lg.val m.src m.msgid
    (r.2.acceptMsg t m r.1 last).creditsFree

/-- A message of the part to itself (R194 step 1): no lane group carries it, and its role epoch is checked like any other's (R216, R218).
`fs` are the flits it would have. -/
def Part.localMsg (s : Part) (t : FType) (m : RxMsg) (fs : List Flit) : Part :=
  let r := s.roleOf m.dst
  let h := match fs with | f :: _ => f.header 0 0 0 0 | [] => 0
  match s.fateNow r m.dst with
  | (.accepted, _) => s.acceptMsg t m none s.now
  | (.held, _) =>
    s.hold { lg := m.lg, src := m.src, msgid := m.msgid, since := s.now, repoch := r, dst := m.dst, msg := some (t, m), chunk := none,
             verdict := none, resend := none, xfer := BitVec.ofNat 8 (Mh.xfer m.hdr), hdr := h, last := s.now }
  | (.quarantined, st) => s.quarantine h m.src m.dst m.msgid r (Mh.xfer m.hdr) st

/-! ### Sending data -/

/-- Sending one data message (R194, R198, R199, R207): on its lane group, or to the part itself. A response that no lane group can
carry sends nothing; any other message completes its transfer with UNROUTABLE. -/
def Part.sendData (s : Part) (t : OutTile) : Part × W16 × Bool :=
  let vl := match t.ftype with | .send => 3 | .arrive => 4 | .getrsp => if t.arr then 4 else 5 | _ => 5
  let mk := s.takeMsgid t.src
  let s := mk.2
  let body := unitsBytes t.units
  let xfer := Mh.xfer t.hdr
  let o (g : Nat) : OutMsg :=
    { ftype := t.ftype, dst := t.dst, lg := g, vl := vl, xfer := BitVec.ofNat 8 xfer, expectsAck := true, acceptedAt := none, buf := t.buf,
      keepBuf := t.keepBuf, hdr := t.hdr, keep := t.keep, clips := t.clips, misfit := t.misfit, verdict := t.verdict, chunk := none }
  let fs := mkFlits t.ftype vl t.dst t.src (s.roleOf t.dst) mk.1 (toBytes 32 t.hdr.toNat ++ body)
  if s.answers t.dst then
    let s := (s.release t.buf).onGh fun g => { g with outMsgs := tabInsert g.outMsgs mk.1.toNat { o 0 with buf := none } }
    let s := s.mirror (.unacked mk.1 (BitVec.ofNat 8 xfer) t.dst)
    (s.localMsg t.ftype ⟨0, t.src, t.dst, mk.1, t.hdr, body⟩ fs, mk.1, true)
  else match s.route t.dst t.lgmask with
    | none =>
      let s := (s.release t.buf).release t.keepBuf
      (if t.ftype = .getrsp then s else s.xferEnd xfer 0x20, mk.1, false)
    | some g =>
      let s := s.onGh fun x => { x with outMsgs := tabInsert x.outMsgs mk.1.toNat (o g) }
      let s := s.mirror (.unacked mk.1 (BitVec.ofNat 8 xfer) t.dst)
      (s.enqueue g (if t.verdict = .awaited then withVerdict fs else fs), mk.1, true)

/-- What an uncorrectable Larder error leaves of a unit (R284). -/
def ueUnit (err : ChunkErr) (i : Nat) (u : LUnit) : LUnit :=
  match err with
  | .record k => if k = i then { u with led := { u.led with scale := 0x3F80#16, count := 0#16, poison := true, absent := true } } else u
  | .elements k => if k = i then { u with led := { u.led with poison := true } } else u
  | _ => u

/-- Units of which an uncorrectable Larder error struck one (R284). -/
def struckUnits (err : ChunkErr) (us : List LUnit) : List LUnit := us.zipIdx.map fun (u, i) => ueUnit err i u

/-- The RESEND's units: the retained wide rows with MISFIT set (R83, R210). -/
def resendUnits (keep : List LUnit) : List LUnit := keep.map fun u => { u with led := { u.led with misfit := true } }

/-- The verdict of a message goes out directly behind it, and on a misfit the wide re-send (R135, R210). The header of the VERDICT flit
bears the message's own number, which the rules require only of its payload (DESIGN CHOICE, log entry 50). -/
def Part.sendVerdict (s : Part) (src : FabId) (msgid : W16) : Part :=
  match tabFind s.gh.outMsgs msgid.toNat with
  | none => s
  | some m =>
    if m.verdict ≠ .awaited then s
    else
      let s := s.onGh fun g => { g with outMsgs := tabInsert g.outMsgs msgid.toNat { m with verdict := .sent m.misfit } }
      let us := resendUnits m.keep
      let body := unitsBytes us
      let h := setFld (setFld (setFld m.hdr 0 5 2) 32 32 body.length) 22 1 0
      if s.answers m.dst then
        match s.findHeld src msgid with
        | some held =>
          s.setHeld { held with
            verdict := some (m.misfit, BitVec.ofNat 32 m.clips)
            resend := if m.misfit then some ⟨0, src, m.dst, msgid, h, body⟩ else none }
        | none =>
          let s := s.takeVerdict src msgid m.misfit
          if m.misfit then s.takeResend ⟨0, src, m.dst, msgid, h, body⟩ else s
      else
        let v := toBytes 2 msgid.toNat ++ toBytes 2 (b2n m.misfit) ++ toBytes 4 m.clips
        s.enqueueBehind m.lg m.vl (src, msgid)
          (mkFlits .verdict m.vl m.dst src (s.roleOf m.dst) msgid v
            ++ if m.misfit then mkFlits .resend m.vl m.dst src (s.roleOf m.dst) msgid (toBytes 32 h.toNat ++ body) else [])

/-- A misfit verdict's marks on the stream (R136). A forecast message's leaves the index of an entry that an earlier calibrated message's
recorded (the rule says nothing of it; DESIGN CHOICE, log entry 27). -/
def Part.misfitMark (s : Part) (stream : Nat) (cal : Option Nat) (clips : Nat) : Part :=
  let s := s.onEnv stream fun e => { e with wide := true, misfitEntry := cal.orElse fun _ => e.misfitEntry, misfitFc := cal.isNone }
  let s := s.onSsu fun u =>
    { u with misfit := true, misfitStream := BitVec.ofNat 12 stream, misfitCnt := satAdd u.misfitCnt 1 }
  s.trace 1 0x0601 [BitVec.ofNat 32 stream, BitVec.ofNat 32 clips]

/-- The test of R134. -/
def misfits (th : W16) (clips n : Nat) : Bool := decide (th.toNat * n < clips * 65536)

/-! ### Narrowing at the Gatehouse (R214) -/

/-- The block of tile k of a transfer (R246): tile row and column tile. -/
def tileOf (b : BitVec 512) (k : Nat) : Nat × Nat := (k / max 1 (Xb.nct b), k % max 1 (Xb.nct b))

/-- Start reading the next tile of a PUT (R246), once the tile before it has gone out. -/
def Part.nextTile (s : Part) (x : Nat) : Part :=
  match tabFind s.gh.xfers x with
  | none => s
  | some t =>
    if t.kind ≠ .put || t.expected ≤ t.nextTile || s.gh.srcJobs.any (fun j => decide (j.ftype = .put) && decide (Mh.xfer j.hdr = x))
        || s.gh.outbox.any (fun o => decide (o.ftype ≠ .getrsp) && decide (Mh.xfer o.hdr = x)) then s
    else
      let b := t.blk
      let k := tileOf b t.nextTile
      let sz := if Xb.sfmt b = 0 then 4 else 2
      let wf := (Fmt.ofCode (Xb.wfmt b)).getD .bf16
      let w := srcWidth t.se wf
      let off := Xb.local' b + 128 * k.1 * Xb.spitch b * 64 + k.2 * 128 / w * w * sz
      let rows := Xb.tileRows b k.1
      let j : SrcJob :=
        { id := s.nextId, ftype := .put, dst := addrId (Xb.remote b), lgmask := Xb.lgmask b,
          hdr := mkHdr b (Xb.wfmt b) (Xb.lfmt b) (addrOff (Xb.remote b)) k.1 k.2 rows 0 0, se := t.se, calIdx := Xb.calidx b,
          off := off, pitch := Xb.spitch b * 64, rows := rows, sfmt := if Xb.sfmt b = 0 then .fp32 else .bf16,
          wfmt := wf, data := [], due := rows, bad := [], src := s.ownId, signs := t.signs,
          arr := Xb.arr b, msgid := 0, col := k.2 }
      (s.onGh fun g => { g with xfers := tabInsert g.xfers x { t with nextTile := t.nextTile + 1 } }).startSource j

/-! ### Messages ready to go out (R31, R192) -/

/-- Messages sent that wait for an ACK. -/
def Gh.unacked (g : Gh) : Nat := (g.outMsgs.filter fun o => o.2.expectsAck).length

/-- A message may go out: its retention copy has its buffer (R31), and fewer than 4,096 are unacknowledged (R192). -/
def Part.outReady (s : Part) (t : OutTile) : Bool := s.grantedOpt t.keepBuf && decide (s.gh.unacked < 4096)

/-- One message goes out, with its verdict where the Gatehouse has it; a PUT goes on with its next tile (R246). -/
def Part.sendTile (s : Part) (t : OutTile) : Part :=
  let s := s.onGh fun g => { g with outbox := g.outbox.filter fun o => o.id ≠ t.id }
  let r := s.sendData t
  let s := if t.verdictNow then r.1.sendVerdict t.src r.2.1 else r.1
  if t.ftype = .put || t.ftype = .arrive then s.nextTile (Mh.xfer t.hdr) else s

/-- All messages that may go out. -/
def Part.pumpOut (s : Part) : Part :=
  s.each s.gh.outbox fun s t => if s.gh.outbox.any (fun o => decide (o.id = t.id)) && s.outReady t then s.sendTile t else s

/-- A message is ready. -/
def Part.post (s : Part) (t : OutTile) : Part :=
  let s : Part := { s with nextId := s.nextId + 1 }
  (s.onGh fun g => { g with outbox := g.outbox ++ [t] }).pumpOut

/-- Units of a source tile under a mode (R214 step 2): stages 3 to 7 of the forward series. A rotation by 256 runs over the tile and the
other one of its pair (R111), each narrowed in its own message. -/
def srcUnits (j : SrcJob) (sel : ModeSel) : List (LUnit × Option LUnit × Nat × List Val) :=
  (List.range j.rows).map fun r =>
    let bs := (tabGet j.data r []).drop (j.off % 64)
    let pair := srcPair j.se j.wfmt
    let x := (unpackCodes j.sfmt.width (srcWidth j.se j.wfmt) bs).map fun c =>
      if j.sfmt = .fp32 then ofFp32 (BitVec.ofNat 32 c) else ofBf16 (BitVec.ofNat 16 c)
    let poison := j.bad.contains r
    if j.wfmt.isLedger then
      let rot := j.se.rotBlock
      let cfg : FwdCfg :=
        { stage1 := false, smooth := false, rotN := rot, ifmt := none,
          signs := if j.se.signEn && decide (rot ≠ 0) then some j.signs else none }
      let t := j.col
      let o := (forwardStages cfg ((if pair then t / 2 * 2 else t) * 128) x [] []).part (if pair then t % 2 * 128 else 0) 128
      let base := baseRec j.se.epoch (decide (rot ≠ 0)) false (poison || o.poison) false
      if sel.mode = .wide then (wideUnit .bf16 { base with wide := true } o.vals, none, 0, o.vals)
      else
        let fc := decide (sel.mode = .forecast) || decide (sel.mode = .calibrated)
        let sc := if fc then (sel.scale, sel.zp) else liveScale j.wfmt j.se j.se.map o.vals
        let u := narrowUnit j.wfmt j.se.map sc base o.vals
        (u.1, if fc then some (wideUnit .bf16 base o.vals) else none, u.2, o.vals)
    else (wideUnit j.wfmt (baseRec j.se.epoch false false poison false) x, none, 0, x)

/-- The header of a message written wide in place of its WFMT (R120, R200): where it was to land narrow it lands as BF16, its elements at
the places of R246 for that format and its tile's column `col`, as R144 has them for a row written wide to die memory (R120; DESIGN
CHOICE, log entry 50). -/
def wideHdr (h : BitVec 256) (col : Nat) : BitVec 256 :=
  let w := ((Fmt.ofCode (Mh.wfmt h)).map Fmt.width).getD 16
  let h' := setFld h 0 5 2
  if Mh.lfmt h = Mh.wfmt h then setFld (setFld h' 5 5 2) 64 47 (Mh.data h + col * 16 * (16 - w)) else h'

/-- All rows of a source tile are in (R214): narrow, send, give the verdict, go on with the next tile. The scale mode is selected, and a
forecast scale taken, when the last row has been read: the spec does not say whether that happens then or as the transfer or
the GETREQ opens (DESIGN CHOICE, log entry 50). -/
def Part.sourceDone (s : Part) (j : SrcJob) : Part :=
  let x := Mh.xfer j.hdr
  let st := Mh.stream j.hdr
  let s := s.onGh fun g => { g with srcJobs := g.srcJobs.filter fun y => y.id ≠ j.id }
  let fail (s : Part) : Part :=
    if j.ftype = .put then s.xferEnd x 5 else s.sendAck j.src j.dst j.msgid x 5
  match selMode s j.wfmt (Mh.wfmt j.hdr) st j.se j.calIdx j.se.mode.toNat with
    | none => fail s
    | some sel =>
      let s := s.calMiss sel.miss st
      let us := srcUnits j sel
      let s := s.each us fun s u => s.feed st u.2.2.2
      let units := us.map fun u => u.1
      let keep := us.filterMap fun u => u.2.1
      let clips := sumN (us.map fun u => u.2.2.1)
      let fc := decide (sel.mode = .forecast) || decide (sel.mode = .calibrated)
      let mis := fc && misfits j.se.misfitTh clips (128 * j.rows)
      let s := if sel.mode = .wide then s.onSsu fun u => { u with wideRows := satAdd u.wideRows j.rows } else s
      let s := if mis then s.misfitMark st sel.cal clips else s
      let hw := if sel.mode = .wide then wideHdr j.hdr j.col else j.hdr
      let h := setFld (setFld hw 32 32 (unitsBytes units).length) 22 1 (b2n fc)
      let kb := if fc then s.larderReq 72 72 ((j.rows * 256 + 1023) / 1024) else (0, s)
      kb.2.post
        { id := kb.2.nextId, ftype := if j.ftype = .put && j.arr then .arrive else j.ftype, arr := j.arr, src := j.src, dst := j.dst,
          lgmask := j.lgmask, hdr := h, units := units, keep := keep, buf := none, keepBuf := if fc then some kb.1 else none,
          clips := clips, verdict := if fc then .awaited else .noVerdict, misfit := mis, verdictNow := fc }

/-! ### SEND transfers (R207, R247) -/

/-- A drain buffer reaches the Gatehouse (R207, R247): one message per tile, or the buffer back with FORMAT where the tile lies
outside the region. `utiles` is L − 1 for a lodge unit. WFMT is the format in which the tile was drained, whatever the block's holds: the
rules say nothing of a difference (DESIGN CHOICE, log entry 50). -/
def Part.ghTakeTile (s : Part) (d : BitVec 128) (t : Nat) (fmt : Fmt) (code utiles rows : Nat)
    (units keep : List LUnit) (buf keepBuf : Option Nat) (clips : Nat) (fc misfit : Bool) : Part :=
  let x := Desc.tag d
  match tabFind s.gh.xfers (x % 256) with
  | none => (s.release buf).release keepBuf
  | some xf =>
    if xf.kind ≠ .send || 256 ≤ x then (s.release buf).release keepBuf
    else
      let b := xf.blk
      if Xb.nct b ≤ t || (Xb.nrows b + 127) / 128 ≤ Desc.rowblk d then
        let s := (s.release buf).release keepBuf
        s.onGh fun g => { g with xfers := tabInsert g.xfers (x % 256) { xf with status := if xf.status = 0#8 then 5#8 else xf.status } }
      else
        let wide := decide (fmt = .bf16) && decide (code ≠ 2)
        let lf := if wide && decide (Xb.lfmt b = Xb.wfmt b) then 2 else Xb.lfmt b
        let h := mkHdr b (if wide then 2 else code) lf (addrOff (Xb.remote b)) (Desc.rowblk d) t rows utiles (unitsBytes units).length
        let h := setFld h 22 1 (b2n fc)
        s.post
          { id := s.nextId, ftype := if Xb.arr b then .arrive else .send, arr := Xb.arr b, src := s.ownId, dst := addrId (Xb.remote b),
            lgmask := Xb.lgmask b, hdr := h, units := units, keep := keep, buf := buf, keepBuf := keepBuf, clips := clips,
            verdict := if fc then .awaited else .noVerdict, misfit := misfit, verdictNow := false }

end Sys2Proof.Machine
end

