-- ==== Sys2Proof/Machine/DrainOps.lean ====
section
/-! DEFINITION. The operations of drain ports and lodges (R41 to R49, R122 to R125, R135, R141 to R163, R349). -/

namespace Sys2Proof.Machine

/-! ### Issue (R141, R155) -/

def Dp.ctx (p : Dp) (k : Nat) : DrainCtx := if k = 0 then p.ctx0 else if k = 1 then p.ctx1 else p.ctx2

/-- The answer to code 0x0C (R155): an open Tether context (R166), or an open SEND transfer (R142, R247). -/
def Part.tagOk (s : Part) (d : BitVec 128) : Bool :=
  if Desc.dest d = 2 then
    Desc.tag d < 64 && (match tabFind s.ctxs (Desc.tag d) with | some c => !c.opening | none => false)
  else if Desc.dest d = 1 then
    Desc.tag d < 256 && (match tabFind s.gh.xfers (Desc.tag d) with | some x => x.kind == .send | none => false)
  else true

/-- The credits of a lodge (R122 step 2). -/
def lodgeNeed (d : BitVec 128) (e : StreamEntry) : Nat := Desc.rows d * ((e.tiles + 1) / 2)
/-- A lodge may be asked for (R122 step 3). -/
def lodgeEligible (d : BitVec 128) (e : StreamEntry) : Bool := decide (lodgeNeed d e ≤ 4096) && decide (Desc.dest d ≤ 1)

/-- The state of the lodge a descriptor names, with an ended late window taken as closed (R125, R137). -/
def Part.lodgePhase (s : Part) (k : Nat) : LodgePhase :=
  let l := s.lodge k
  if l.phase = .lateWindow && s.ended l.since s.ssu.tmo.toNat then .closed else l.phase

/-- The join conditions of R123. The tile index is held against the joining descriptor's own L (code 0x07) and not against the lodge's,
which differs where a step mark has changed ROW_T between the opening and the join (DESIGN CHOICE, log entry 27). -/
def Lodge.joinOk (l : Lodge) (d : BitVec 128) : Bool :=
  decide (Desc.rows d = l.rows) && decide (Desc.stream d = l.stream) && (tabFind l.segs (Desc.tile d)).isNone

/-- A new job with its copies (R141). -/
def Part.newJob (s : Part) (dp : Nat) (d : BitVec 128) (src : Option (Fin 9)) (sel : ModeSel) : DrainJob :=
  let e := s.stream (Desc.stream d)
  { id := s.nextId, desc := d, src := src, se := e, ctx := (s.dp dp).ctx (Desc.ctx d), signs := s.signUnits e, mode := sel.mode,
    scale := sel.scale, zp := sel.zp, calEntry := sel.cal, lodge := none, lodgeWait := false, pair := .single, outBuf := none,
    keepBuf := none, started := false, rowsIn := 0, row := 0, held := [], opnd := [], opndDue := [], opndBad := [],
    half0 := .empty, half1 := .empty, poisoned := false, nocDue := 0, nocErr := false }

/-- Ask for an operand (R153): 128 values, 256 on a lead. -/
def Part.askOperand (s : Part) (dp : Nat) (j : DrainJob) (kind t r n : Nat) (lodge : Option Nat) : Part × DrainJob :=
  let key := opndKey kind t r
  let row := Desc.rowblk j.desc * 128 + r
  let use := match lodge with | some k => NocUse.operand (64 + k) j.id key | none => NocUse.operand dp j.id key
  (s.nocRead (dp / 8) (opndAddr j.ctx kind t row) (n * opndSize j.ctx kind) use, { j with opndDue := key :: j.opndDue })

/-- All operand reads of a job for tile t (R153). -/
def Part.askOperands (s : Part) (dp : Nat) (j : DrainJob) (t n : Nat) (lodge : Option Nat) : Part × DrainJob :=
  let a := if Desc.hasBias j.desc then s.askOperand dp j 0 t 0 n lodge else (s, j)
  let a := if chainSmooth (Desc.chain j.desc) j.se then a.1.askOperand dp a.2 2 t 0 n lodge else a
  if Desc.hasRes j.desc then
    (List.range j.rows).foldl (fun a r => Part.askOperand a.1 dp a.2 1 t r n lodge) a
  else a

/-- Put a job into the port: the executing place if it is free, else the pending one. -/
def Dp.place (p : Dp) (j : DrainJob) : Dp := match p.exec with | none => { p with exec := some j } | some _ => { p with pend := some j }
/-- A place is free (R41); a sleeping quad holds one descriptor (R45). -/
def Part.dpReady (s : Part) (dp : Nat) : Bool :=
  let p := s.dp dp
  p.fenced || p.exec.isNone || (p.pend.isNone && s.dpAwake dp)

/-- Change the jobs of a port. -/
def Dp.mapJobs (p : Dp) (f : DrainJob → DrainJob) : Dp := { p with exec := p.exec.map f, pend := p.pend.map f }

/-- The waiting counterpart of a paired descriptor in the cluster (R154): same stream and row block, the other tile of the pair. R154 does not say how a
port knows its counterpart: descriptors that differ in STREAM or ROWBLK are taken for halves of two pairs and wait out their microsecond (DESIGN CHOICE, log
entry 27). One whose microsecond has ended is none (R137, R138). -/
def Part.findPair (s : Part) (dp : Nat) (d : BitVec 128) : Option (Nat × DrainJob) :=
  ((List.range 8).filterMap fun i =>
    let n := dp / 8 * 8 + i
    let ok (j : DrainJob) : Bool :=
      (match j.pair with | .waiting t => !s.ended t 1000 | _ => false) && decide (Desc.stream j.desc = Desc.stream d)
        && decide (Desc.rowblk j.desc = Desc.rowblk d) && decide (Desc.tile j.desc / 2 = Desc.tile d / 2)
        && decide (Desc.tile j.desc ≠ Desc.tile d)
    if n = dp then none
    else match (s.dp n).exec, (s.dp n).pend with
      | some j, p =>
        if ok j then some (n, j) else match p with | some k => if ok k then some (n, k) else none | none => none
      | none, some k => if ok k then some (n, k) else none
      | none, none => none).head?

/-- The two descriptors agree in all but SLOT, TILE and EVT_EN/EVENT (R154). -/
def pairAgree (a b : BitVec 128) : Bool :=
  let m (d : BitVec 128) : BitVec 128 := setFld (setFld (setFld d 24 2 0) 37 12 0) 108 9 0
  decide (m a = m b)

/-- Remove a job from its places, the next one moving up. -/
def Dp.dropJob (p : Dp) (id : Nat) : Dp :=
  { p with
    exec := p.exec.bind fun j => if j.id = id then none else some j
    pend := p.pend.bind fun j => if j.id = id then none else some j }.moveUp

/-- Change one job of a port. -/
def Part.setJob (s : Part) (dp : Nat) (j : DrainJob) : Part := s.onDp dp fun p => p.mapJobs fun x => if x.id = j.id then j else x

/-- A descriptor in its place whose mode is settled begins (R153, R154): a paired one looks for its counterpart, any other asks for its
operands. Both descriptors of a pair that disagrees are rejected. -/
def Part.beginJob (s : Part) (dp : Nat) (j : DrainJob) : Part :=
  let d := j.desc
  if Desc.pair d then
    match s.findPair dp d with
    | none => s.setJob dp { j with pair := .waiting s.now }
    | some (n, k) =>
      if !pairAgree d k.desc then
        let s := (((s.onDp dp fun p => p.dropJob j.id).seqDrainEnd j.src).reject dp d j.src 10).seqDrainEnd k.src
        (s.onDp n fun p => p.dropJob k.id).reject n k.desc k.src 10
      else
        let evenHere := Desc.tile d % 2 = 0
        let jj := { j with pair := if evenHere then .lead n else .partner n, mate := some k.id }
        let kk := { k with pair := if evenHere then .partner dp else .lead dp, mate := some j.id }
        let s := (s.setJob dp jj).setJob n kk
        let ld := if evenHere then dp else n
        let lj := if evenHere then jj else kk
        let a := s.askOperands ld lj (Desc.tile lj.desc) 256 none
        a.1.setJob ld a.2
  else
    let a := s.askOperands dp j (Desc.tile d) 128 none
    a.1.setJob dp a.2

/-- Accept a job that has passed its checks (R45): it takes a place and wakes the quad, and begins unless a lodge has it. -/
def Part.accept (s : Part) (dp : Nat) (j : DrainJob) : Part :=
  let s : Part := { s with nextId := s.nextId + 1 }
  let s := (s.seqDrainBegin j.src).wake (quadOf dp)
  let s := if Desc.dest j.desc = 1 then s.wake .gh else s
  let s := s.onDp dp fun p => p.place j
  if j.mode = .lodge || j.lodgeWait then s else s.beginJob dp j

/-- A mode that is settled at issue; none rejects with code 0x09 (R119, R155). -/
def Part.settleMode (s : Part) (dp : Nat) (d : BitVec 128) (src : Option (Fin 9)) (sel : Option ModeSel) : Part :=
  match sel with
  | none => s.reject dp d src 9
  | some m => (s.calMiss m.miss (Desc.stream d)).accept dp (s.newJob dp d src m)

/-! ### The end of a lodge (R124, R125) -/

/-- The slot goes back after its last row's data (R44). -/
def Part.slotBack (s : Part) (dp : Nat) (j : DrainJob) : Part := s.emit (.slotFree dp (Desc.slot j.desc))
/-- The slot still stands: data of its last row has not arrived (R44, R154). -/
def DrainJob.slotHeld (j : DrainJob) : Bool := decide (j.rowsIn < j.rows)
/-- The slot of a descriptor that ends early goes back, unless its last row's data had released it. -/
def Part.slotBackIf (s : Part) (dp : Nat) (j : DrainJob) : Part := if j.slotHeld then s.slotBack dp j else s

/-- Change the close of a job. -/
def Part.onClosing (s : Part) (id : Nat) (f : Lodge → Lodge) : Part :=
  s.onSsu fun u =>
    { u with closing := u.closing.map fun c => if (c.2.job.map DrainJob.id) = some id then (c.1, f c.2) else c }

/-- A pass of a close asks for the operands of the whole row (R124). -/
def Part.askClose (s : Part) (k : Nat) (l : Lodge) (j : DrainJob) : Part × DrainJob :=
  (List.range l.tiles).foldl (fun a t => Part.askOperands a.1 l.owner a.2 t 128 (some k)) (s, { j with opnd := [], opndDue := [], opndBad := [] })

/-- The first pass ends when its operands are in, and the second reads them again (R124). -/
def Part.closePass (s : Part) (id : Nat) : Part :=
  match s.ssu.closing.find? fun c => decide ((c.2.job.map DrainJob.id) = some id) with
  | some (k, l) =>
    match l.job with
    | some j =>
      if l.pass = 1 && j.opndDue.isEmpty then
        let a := s.askClose k l j
        a.1.onClosing id fun x => { x with pass := 2, opnd1 := j.opnd, bad1 := j.opndBad, job := some a.2 }
      else s
    | none => s
  | none => s

/-- A lodge begins its close (R124, R125): it leaves its number, which is closed, or closed to its stream for the late window; its first
pass asks for its operands, and a DEST 1 close for its output buffer. -/
def Part.beginClose (s : Part) (k : Nat) (timedOut : Bool) (start : Nat) : Part :=
  let l := s.lodge k
  match l.job with
  | none => s
  | some j =>
    let a := s.askClose k l j
    let b := if Desc.dest j.desc = 1 then
        let q := a.1.larderReq l.owner 72 ((l.rows * (8 + 16 * l.tiles * j.fmt.width) + 1023) / 1024)
        (q.2, { a.2 with outBuf := some q.1 })
      else a
    let s := b.1.onSsu fun u =>
      { u with closing := u.closing ++ [(k, { l with job := some b.2, since := start, timedOut := timedOut, pass := 1 })] }
    let s := s.onLodge k fun _ =>
      if timedOut then { Lodge.reset with phase := .lateWindow, stream := l.stream, since := start, timedOut := true } else Lodge.reset
    s.closePass j.id

/-- Abandon the deposits in progress of a lodge (R125 step 1). The opener's own deposit among them leaves its completion to the close,
which reports POISONED (R160), and not LATE (R125): the two rules both speak of it (DESIGN CHOICE, log entry 27). -/
def Part.abandonDeposits (s : Part) (k : Nat) : Part :=
  let opener := match (s.lodge k).job with | some o => o.id | none => 0
  let drop (s : Part) (n : Nat) (j : DrainJob) : Part :=
    if j.lodge = some k then
      let s := (s.slotBackIf n j).onDp n fun p => p.dropJob j.id
      let s := s.onSsu fun u => { u with lodgeLate := satAdd u.lodgeLate 1 }
      if j.id = opener then s else s.drainEnd n j.desc j.src 6
    else s
  s.each (List.range 64) fun s n =>
    let p := s.dp n
    let s := match p.exec with | some j => drop s n j | none => s
    match p.pend with | some j => drop s n j | none => s

/-- The end of a lodge's window with tiles missing (R125): the close starts at that end. -/
def Part.lodgeTimeOut (s : Part) (k : Nat) : Part :=
  let l := s.lodge k
  (s.abandonDeposits k).beginClose k true (l.since + s.ssu.tmo.toNat)

/-- The boundary first (R138): an open lodge whose window has ended closes before a deposit is looked at. -/
def Part.lodgeExpire (s : Part) (k : Nat) : Part :=
  if (s.lodge k).phase = .opened && s.ended (s.lodge k).since s.ssu.tmo.toNat then s.lodgeTimeOut k else s

/-- The descriptor opens a lodge of its own (R122): the request, and the job that waits for its grant. -/
def Part.openLodge (s : Part) (dp : Nat) (d : BitVec 128) (src : Option (Fin 9)) (e : StreamEntry) (k : Nat) : Part :=
  let r := s.larderReq dp dp (lodgeNeed d e)
  let s := r.2
  let j := { s.newJob dp d src (.of .lodge) with lodge := some k, lodgeWait := true }
  let s := s.onLodge k fun _ =>
    { Lodge.reset with
      phase := .opening
      owner := dp
      job := some j
      stream := Desc.stream d
      rows := Desc.rows d
      tiles := e.tiles
      since := s.now
      req := some r.1
      segs := [(Desc.tile d, [])] }
  s.accept dp j

/-- A descriptor that DPn accepts (R119, R141, R155); its issue wakes the SSU (R313). A lodge whose window has ended is closed before it
is joined (R138). -/
def Part.issue (s : Part) (dp : Nat) (d : BitVec 128) (src : Option (Fin 9)) : Part :=
  let p := s.dp dp
  if p.fenced then
    (s.onDp dp fun p => { p with held := setBitAt p.held (Desc.slot d) }).signalIf (Desc.evtEn d) (dp / 8) (Desc.event d)
      (evDrain 4 0 dp)
  else
    let s := s.wake .ssu
    let e := s.stream (Desc.stream d)
    let v := s.env (Desc.stream d)
    let k := Desc.lodge d
    let asks := Desc.asksLodge d e
    let s := if asks then s.lodgeExpire k else s
    let ph := s.lodgePhase k
    let joins := asks && (ph = .opened || ph = .opening)
    let late := asks && ph = .lateWindow && (s.lodge k).stream = Desc.stream d
    let opens := asks && !v.wide && lodgeEligible d e
    let code := descCheck d e (p.ctx (Desc.ctx d)) v.wide joins ((s.lodge k).joinOk d) (joins || late || opens) (s.tagOk d)
    let f := (Fmt.ofCode (Desc.tfmt d)).getD .fp32
    if code ≠ 0 then s.reject dp d src code
    else if late then s.lateDeposit dp d src
    else if joins then
      let s1 := s.onLodge k fun l => { l with segs := tabInsert l.segs (Desc.tile d) [] }
      s1.accept dp
        { s1.newJob dp d src (.of .lodge) with
          lodge := some k
          lodgeWait := decide (ph = .opening) }
    else if opens then s.openLodge dp d src e k
    else s.settleMode dp d src
      (selMode s f (Desc.tfmt d) (Desc.stream d) e (Desc.calidx d) (if Desc.chain d = 10 then 1 else e.mode.toNat))

/-! ### Start (R349) -/

/-- The buffers a descriptor requests as it starts: output and retention copy (R146, R157, R349). -/
def Part.requestBuffers (s : Part) (dp : Nat) (j : DrainJob) : Part × DrainJob :=
  let dest := Desc.dest j.desc
  if dest = 0 || j.mode = .lodge then (s, j)
  else match j.pair with
    | .partner _ => (s, j)
    | _ =>
      let consumer := if dest = 1 then 72 else 64 + dp / 8
      let x48 := Desc.chain j.desc = 9 && (match tabFind s.ctxs (Desc.tag j.desc) with | some c => 4096 ≤ Tb.rank c.blk | none => false)
      let f := if x48 then Fmt.x48 else j.fmt
      let a := s.larderReq dp consumer (footprint (j.rows * j.tilesOut) f)
      let j := { j with outBuf := some a.1 }
      if j.mode = .forecast || j.mode = .calibrated then
        let b := a.2.larderReq dp consumer ((j.rows * j.tilesOut * 256 + 1023) / 1024)
        (b.2, { j with keepBuf := some b.1 })
      else (a.2, j)

/-- A descriptor that may start: in its executing place, its mode settled, its pair found. -/
def DrainJob.canStart (j : DrainJob) : Bool :=
  !j.started && !j.lodgeWait && (match j.pair with | .waiting _ => false | _ => true)

/-! ### Rows (R42, R124, R154) -/

/-- The verdict of a finished message (R134, R136). -/
def DrainJob.misfit (j : DrainJob) (h : HalfOut) : Bool :=
  (decide (j.mode = .forecast) || decide (j.mode = .calibrated)) && misfits j.se.misfitTh h.clips (128 * j.rows)

/-- The hand-over of one tile's units (R142, R160): to the Gatehouse or the Waystation, with its verdict. -/
def Part.handTile (s : Part) (dp : Nat) (j : DrainJob) (h : HalfOut) (t : Nat) (buf keepBuf : Option Nat) : Part :=
  let fc := decide (j.mode = .forecast) || decide (j.mode = .calibrated)
  let mis := j.misfit h
  let s := if mis then s.misfitMark (Desc.stream j.desc) j.calEntry h.clips else s
  if Desc.dest j.desc = 1 then
    s.ghTakeTile j.desc t j.fmt (Desc.tfmt j.desc) 0 j.rows h.units h.keep buf keepBuf h.clips fc mis
  else if Desc.dest j.desc = 2 then
    let x48 := h.units.any fun u => u.led.exact
    (s.onWs (dp / 8) fun w =>
      { w with
        deposits := w.deposits ++ [⟨Desc.tag j.desc % 64, Desc.rowblk j.desc, t, j.se.tiles,
          if Desc.chain j.desc = 9 then runFmt x48 else j.fmt, h.units, h.keep, mis, buf, keepBuf⟩] }).wake (wsDom (dp / 8))
  else s

/-- The last row of a descriptor is written (R160): a deposit whose context has ended is rejected with code 0x0C (R155, R251); else blocks, hand-over, completion or wait for the NoC's responses. -/
def Part.tileDone (s : Part) (dp : Nat) (j : DrainJob) : Part :=
  let t := Desc.tile j.desc
  let use := NocUse.drainOut dp j.id
  let lead := match j.pair with | .lead _ => true | _ => false
  let a := s.writeBlocks dp j j.half0 t use
  let a := if lead then Part.writeBlocks a.1 dp a.2 j.half1 (t + 1) use else a
  let j := a.2
  let s := a.1.onDp dp fun p => p.dropJob j.id
  if j.ctxGone then (((s.release j.outBuf).release j.keepBuf).seqDrainEnd j.src).reject dp j.desc j.src 12 else
  let s := if lead then (s.handTile dp j j.half0 t none none).handTile dp j j.half1 (t + 1) j.outBuf j.keepBuf
    else s.handTile dp j j.half0 t j.outBuf j.keepBuf
  if j.nocDue = 0 then s.drainEnd dp j.desc j.src (if j.poisoned then 2 else 0)
  else s.onDp dp fun p => { p with tail := p.tail ++ [j] }

/-- One row through stages 1 to 7 (R98): of 128 elements, or on a lead of the 256 of both tiles, each half its own unit (R154). -/
def Part.drainRow (s : Part) (dp : Nat) (j : DrainJob) (row row2 : List W32) (ue : Bool) : Part × DrainJob :=
  let t := Desc.tile j.desc
  let r := j.row
  let bad (tt : Nat) : Bool := ue || (j.keys tt r).any j.opndBad.contains
  let s := (s.larderUse j.outBuf).larderUse j.keepBuf
  match j.pair with
  | .lead _ =>
    let o := j.stages t r 256 ((row ++ row2).map ofFp32)
    let a := s.writeUnit dp j j.half0 t r (o.part 0 128) (bad t)
    let b := Part.writeUnit a.1 dp a.2.1 j.half1 (t + 1) r (o.part 128 128) (bad t)
    (b.1, { b.2.1 with half0 := a.2.2, half1 := b.2.2, row := r + 1 })
  | _ =>
    let o := j.stages t r 128 (row.map ofFp32)
    let a := s.writeUnit dp j j.half0 t r o (bad t)
    (a.1, { a.2.1 with half0 := a.2.2, row := r + 1 })

/-- Set a port's executing job. -/
def Part.setExec (s : Part) (dp : Nat) (j : DrainJob) : Part := s.onDp dp fun p => { p with exec := some j }

/-- A row of a lodge deposit (R123, R124). -/
def Part.lodgeRow (s : Part) (dp : Nat) (j : DrainJob) (k : Nat) (row : List W32) (ue : Bool) : Part :=
  let t := Desc.tile j.desc
  let s := (s.larderUse (s.lodge k).req).onLodge k fun l =>
    { l with
      segs := tabInsert l.segs t ((tabGet l.segs t []) ++ [row])
      bad := if ue then (t, j.row) :: l.bad else l.bad }
  let j := { j with row := j.row + 1, rowsIn := j.rowsIn + 1, poisoned := j.poisoned || ue }
  if j.row < j.rows then s.setExec dp j
  else
    let s := (s.slotBack dp j).onLodge k fun l => { l with done := t :: l.done }
    let s := s.onDp dp fun p => p.dropJob j.id
    let opener := match (s.lodge k).job with | some o => decide (o.id = j.id) | none => false
    let s := if opener then s else s.drainEnd dp j.desc j.src (if j.poisoned then 2 else 0)
    if (s.lodge k).done.length = (s.lodge k).tiles then s.beginClose k false s.now else s

/-- A started descriptor's next row can be read as far as its own buffers and operands go (R153, R349). -/
def Part.rowAsked (s : Part) (j : DrainJob) : Bool :=
  j.started && s.grantedOpt j.outBuf && s.grantedOpt j.keepBuf && decide (j.rowsIn < j.rows)
    && (j.keys (Desc.tile j.desc) j.rowsIn).all (fun k => !j.opndDue.contains k)

/-- A partner's lead asks for the partner's next row (R154): it is the one that executes at its port, it has started, its buffers are granted and its operands of that row are
in. Any other descriptor asks for itself. -/
def Part.leadAsks (s : Part) (dp : Nat) (j : DrainJob) : Bool :=
  match j.pair with
  | .partner l =>
    match (s.dp l).exec with
    | some a => decide (a.pair = .lead dp) && decide (a.mate = some j.id) && s.rowAsked { a with rowsIn := j.rowsIn }
    | none => false
  | _ => true

/-- Reads of the executing descriptor run (R42, R45, R153, R154, R349): started, buffers granted, operands of the row in, asked for by its
lead, quad awake, no close on the port's lanes (R124). -/
def Part.rowReady (s : Part) (dp : Nat) (j : DrainJob) : Bool :=
  s.rowAsked j && s.leadAsks dp j && s.dpAwake dp && !(s.dp dp).fenced && !s.glob.fencedSelf
    && s.ssu.closing.all (fun l => decide (l.2.owner ≠ dp))

/-- An accumulator row with an error is counted (R43). -/
def Part.rowError (s : Part) (dp : Nat) (ue : Bool) : Part :=
  if ue then (s.onDp dp fun p => { p with errCnt := satAdd p.errCnt 1 }).irqDpErr dp else s

/-- A row of a paired port waits for the other half; its slot goes back with its own last row (R44, R154). -/
def Part.pairRow (s : Part) (dp : Nat) (j : DrainJob) (row : List W32) (ue : Bool) : Part :=
  let j := { j with held := j.held ++ [(row, ue)], rowsIn := j.rowsIn + 1 }
  let s := s.setExec dp j
  if j.rowsIn = j.rows then s.slotBack dp j else s

/-- A pair advances when both ports hold a row (R154). The partner, which converts nothing, completes with OK even where a row of the pair
had POISON, which the lead's status shows (R160 has no rule of its own for it; DESIGN CHOICE, log entry 27). -/
def Part.pairStep (s : Part) (ld pt : Nat) : Part :=
  match (s.dp ld).exec, (s.dp pt).exec with
  | some a, some b =>
    match a.held, b.held with
    | x :: xs, y :: ys =>
      if a.pair = .lead pt && b.pair = .partner ld && decide (a.mate = some b.id) then
        let r := s.drainRow ld { a with held := xs } x.1 y.1 (x.2 || y.2)
        let b := { b with held := ys, row := b.row + 1 }
        let s := (r.1.setExec ld r.2).setExec pt b
        let s := if b.row = b.rows then
            (s.onDp pt fun p => p.dropJob b.id).drainEnd pt b.desc b.src 0
          else s
        if r.2.row = r.2.rows then s.tileDone ld r.2 else s
      else s
    | _, _ => s
  | _, _ => s

/-! ### Lodges -/

/-- A row of the lodge as the close reads it (R124, R125, R157): a missing tile's accumulator values are +0, before stage 1 adds bias and
residual to them (the rule says +0 "for both the statistic and the codes" and not of which stage; DESIGN CHOICE, log entry 27). A
stagewise C10 holds its deposits in IFMT by the table of R157, also where stages 1 to 4 are all skipped, against the last sentence
of R98 (DESIGN CHOICE, log entry 43). -/
def Lodge.rowVals (l : Lodge) (j : DrainJob) (r : Nat) : List Val × List Bool :=
  let x := ((List.range l.tiles).map fun t =>
    if l.done.contains t then (((tabGet l.segs t []).getD r []).map ofFp32) else List.replicate 128 Val.zero).flatten
  roundStage (decide (Desc.chain j.desc = 10)) j.cfg.ifmt x

/-- Stages 1 to 4 of one pass over row r of a lodge, with that pass's operand values (R98, R124). -/
def Lodge.passRow (l : Lodge) (j : DrainJob) (opnd : Tab (List Byte)) (r : Nat) : FwdOut :=
  let get (kind row : Nat) : List Val :=
    ((List.range l.tiles).map fun t => opndVals j.ctx kind 128 (tabGet opnd (opndKey kind t row) [])).flatten
  let x := l.rowVals j r
  let o := forwardStages j.cfg 0 x.1
    ((if Desc.hasBias j.desc then [get 0 0] else []) ++ (if Desc.hasRes j.desc then [get 1 r] else []))
    (if j.cfg.smooth then get 2 0 else [])
  { o with clips := orFlags o.clips x.2 }

/-- What one row of a close becomes: its unit of L × 128 elements, its stage-4 values, and its stage-1 values for C11. -/
structure CloseRow where
  unit : LUnit
  vals : List Val
  wide1 : List Val
  /-- An error of the row, before any rule of the stages (R158). -/
  err : Bool
  deriving DecidableEq, Repr

/-- One row of the close (R124, R125, R158): the scale from the first pass's statistic, the codes from the second pass. -/
def Lodge.closeRow (l : Lodge) (j : DrainJob) (bad : List Nat) (r : Nat) : CloseRow :=
  let o1 := l.passRow j l.opnd1 r
  let o := l.passRow j j.opnd r
  let opBad := (List.range l.tiles).any fun t => (j.keys t r).any fun k => j.opndBad.contains k || l.bad1.contains k
  let f := (Fmt.ofCode (Desc.tfmt j.desc)).getD .int8
  let err := l.timedOut || l.bad.any (fun b => decide (b.2 = r)) || bad.contains r || opBad
  let base := baseRec j.se.epoch (Desc.rotates j.desc j.se) j.cfg.smooth (err || o.poison) o.clipped
  { unit := (narrowUnit f j.se.map (liveScale f j.se j.se.map o1.vals) base o.vals).1, vals := o.vals, wide1 := o.wide1, err := err }

/-- The writes of a close to die memory (R144): of a DEST 0 lodge the rows and the record block of t = 0; of C11 the wide rows (R150);
of C7 the statistic block (R151), at t = 0 too, which R144 says of the output and Ledger formulas alone (DESIGN CHOICE, log entry 27). -/
def Part.closeWrites (s : Part) (l : Lodge) (j : DrainJob) (rows : List CloseRow) : Part × DrainJob :=
  let use := NocUse.drainOut l.owner j.id
  let here := Desc.dest j.desc = 0
  let w := if here then
      rows.zipIdx.foldl (fun (a : Part × DrainJob × HalfOut) (u, r) => Part.writeRow a.1 l.owner a.2.1 a.2.2 0 r u.unit.els)
        (s, j, HalfOut.empty)
    else (s, j, HalfOut.empty)
  let w := if Desc.chain j.desc = 11 then
      rows.zipIdx.foldl (fun (a : Part × DrainJob) (u, r) => Part.writeWide a.1 l.owner a.2 0 r u.err u.wide1) (w.1, w.2.1)
    else (w.1, w.2.1)
  Part.writeBlocks w.1 l.owner w.2
    { HalfOut.empty with
      led := if here then rows.map fun u => u.unit.led.word else []
      stats := if Desc.chain j.desc = 7 then rows.map fun u => statRec u.vals else [] } 0 use

/-- A waiting descriptor falls back as its owner does (R119 step 4, R122): no lodge unit any more, it runs as a tile row, in its pair
where it has PAIR (R149, R154). -/
def Part.lodgeFallback (s : Part) (n : Nat) (j : DrainJob) : Part :=
  let d := j.desc
  let f := (Fmt.ofCode (Desc.tfmt d)).getD .int8
  match selFallback s f (Desc.tfmt d) (Desc.stream d) j.se (Desc.calidx d) with
  | none => ((s.onDp n fun p => p.dropJob j.id).seqDrainEnd j.src).reject n d j.src 9
  | some m =>
    if Desc.rotates d j.se && j.se.rotBlock = 256 && !Desc.pair d then
      ((s.onDp n fun p => p.dropJob j.id).seqDrainEnd j.src).reject n d j.src 10
    else
      let s := s.calMiss m.miss (Desc.stream d)
      let j' := { j with mode := m.mode, scale := m.scale, zp := m.zp, calEntry := m.cal, lodge := none, lodgeWait := false }
      (s.setJob n j').beginJob n j'

/-- The oldest close that runs under a lodge number, with its job (R124). -/
def Part.closeOf (s : Part) (k : Nat) : Option (Lodge × DrainJob) :=
  match s.ssu.closing.find? fun c => decide (c.1 = k) with
  | some c => c.2.job.map fun j => (c.2, j)
  | none => none

/-- The jobs that wait for a lodge. -/
def Part.lodgeWaiters (s : Part) (k : Nat) : List (Nat × DrainJob) :=
  ((List.range 64).map fun n =>
    (((s.dp n).exec.toList ++ (s.dp n).pend.toList).filter fun j => j.lodgeWait && decide (j.lodge = some k)).map
      fun j => (n, j)).flatten

/-- Lodges whose buffer has been granted open, and the descriptors that wait join them (R122). -/
def Part.openLodges (s : Part) : Part :=
  s.each s.ssu.lodges fun s kl =>
    if kl.2.phase = .opening && s.grantedOpt kl.2.req then
      let s := s.onLodge kl.1 fun l => { l with phase := .opened, since := s.now }
      s.each (s.lodgeWaiters kl.1) fun s w => s.onDp w.1 fun p => p.mapJobs fun x => if x.id = w.2.id then { x with lodgeWait := false } else x
    else s

/-- A paired descriptor whose microsecond without its counterpart has ended is rejected (R154). -/
def Part.pairExpire (s : Part) (n : Nat) (j : DrainJob) : Part :=
  match j.pair with
  | .waiting t =>
    if s.ended t 1000 then ((s.onDp n fun p => p.dropJob j.id).seqDrainEnd j.src).reject n j.desc j.src 10 else s
  | _ => s

/-- The ends of windows that come before an event at a port (R138): of its lodges, and of its descriptors that look for a pair. -/
def Part.portExpire (s : Part) (n : Nat) : Part :=
  let js := (s.dp n).exec.toList ++ (s.dp n).pend.toList
  let s := s.each (js.filterMap DrainJob.lodge) Part.lodgeExpire
  s.each js fun s j => s.pairExpire n j

/-! ### Fencing (R161 to R163) -/

/-- An executing descriptor is abandoned at a fence (R162): the rows it has are written, buffers back, no hand-over; the lodge keeps
its other tiles. The opener of an open lodge signals no FENCED for its own deposit, and its one event is the close's (R160); an opener
fenced while its lodge is opening withdraws the request and closes the number, and the descriptors that wait fall back by LODGE_FB as
at a withdrawal of R122 (DESIGN CHOICE, log entry 27: R122, R160 and R162 name neither case). -/
def Part.abandon (s : Part) (dp : Nat) (j : DrainJob) : Part :=
  let s := ((s.flushRows dp j).release j.outBuf).release j.keepBuf
  match j.lodge with
  | some k =>
    let l := s.lodge k
    let opener := match l.job with | some o => decide (o.id = j.id) | none => false
    let s := s.onLodge k fun l =>
      { l with segs := tabErase l.segs (Desc.tile j.desc), bad := l.bad.filter fun b => b.1 ≠ Desc.tile j.desc }
    if opener && l.phase = .opening then
      let ws := (s.lodgeWaiters k).filter fun w => w.2.id ≠ j.id
      let s := (s.release l.req).onLodge k fun _ => .reset
      (s.each ws fun s w => s.lodgeFallback w.1 w.2).drainLost dp j.desc j.src
    else if opener then s
    else s.drainLost dp j.desc j.src
  | none => s.drainLost dp j.desc j.src

/-- The other port of a pair loses it too, at the loss of its counterpart `lost` (R154): its own slot released, status PAIR_LOST. -/
def Part.pairLost (s : Part) (n me lost : Nat) : Part :=
  match (s.dp n).exec, (s.dp n).pend with
  | e, p =>
    match (e.toList ++ p.toList).find? fun j => (decide (j.pair = .lead me) || decide (j.pair = .partner me)) && decide (j.mate = some lost) with
    | some j =>
      ((((((s.flushRows n j).release j.outBuf).release j.keepBuf).slotBackIf n j).onDp n fun p => p.dropJob j.id)).drainEnd n j.desc j.src 3
    | none => s

/-- The fence (R46, R49, R161, R162). A tile of which no row has transferred yet, though row 0 may be offered, counts as not being
delivered and gives no OPS_ABORT: R49 does not say whether that is "during a tile" (DESIGN CHOICE, log entry 27). The slot of a tile whose rows were all written
before the fence was released with its last row's data (R44), so that HELD does not show it, where point 5 of R162 has it stay held (DESIGN CHOICE, log entry
27). -/
def Part.fence (s : Part) (dp : Nat) : Part :=
  if (s.dp dp).fenced then s
  else
    let s := s.portExpire dp
    let p := s.dp dp
    let jobs := p.exec.toList ++ p.pend.toList
    let cut := p.ops
    let delivering := match cut with | o :: _ => decide (0 < o.next) | [] => false
    let s := s.onDp dp fun p =>
      { p with
        fenced := true
        exec := none
        pend := none
        ops := []
        abortCnt := satAdd p.abortCnt cut.length
        held := (jobs.filter DrainJob.slotHeld).foldl (fun h j => setBitAt h (Desc.slot j.desc)) p.held }
    let s := if delivering then s.emit (.opsAbort dp) else s
    let s := s.each cut fun s o => s.release o.buf
    let s := if jobs.isEmpty && cut.isEmpty then s else s.worked (quadOf dp)
    let s := match p.exec with | some j => s.abandon dp j | none => s
    let s := match p.pend with
      | some j => if j.lodge.isSome then s.abandon dp j else s.drainLost dp j.desc j.src
      | none => s
    let s := s.each jobs fun s j =>
      match j.pair with | .lead n => s.pairLost n dp j.id | .partner n => s.pairLost n dp j.id | _ => s
    ((s.irqDpFence dp).note 2 (BitVec.ofNat 16 dp) (BitVec.ofNat 32 jobs.length)).trace 2 0x0701
      [BitVec.ofNat 32 dp, BitVec.ofNat 32 jobs.length]

/-- The unfence (R163): held slots come back, lowest first. -/
def Part.unfence (s : Part) (dp : Nat) : Part :=
  let p := s.dp dp
  if p.coreFault then s.accessErr 2 (0x4000 + dp * 0x100) true
  else
    let s := s.each (List.range 4) fun s i => if bitOf p.held i then s.emit (.slotFree dp i) else s
    s.onDp dp fun p => { p with held := 0, fenced := false, fenceBit := false }

/-! ### Operand rows (R47 to R49) -/

end Sys2Proof.Machine
end

