-- ==== Sys2Proof/Machine/Transfers.lean ====
section
/-! DEFINITION. Sequencer words and faults (R226, R232, R233, R255), transfers as programs open them (R244 to R248), and their
tiles (R246). -/

namespace Sys2Proof.Machine

/-! ### Words of a Spool (R228, R232, R233) -/

/-- Opcodes of R233. -/
def opcodes : List Nat :=
  [0x01, 0x02, 0x03, 0x04, 0x08, 0x09, 0x0A, 0x10, 0x11, 0x12, 0x18, 0x19, 0x1A, 0x1B, 0x20, 0x21, 0x22, 0x23, 0x24]

/-- The word at PC, none at or beyond LEN (R255). -/
def Seq.word (x : Seq) : Option W64 := x.spool[x.pc.toNat]?

/-- `n` Spool words from word `at0` as one number; none where one lies at or beyond LEN (R255). -/
def Seq.block (x : Seq) (at0 n : Nat) : Option Nat :=
  if at0 + n ≤ x.spool.length then
    some (ofBytes (((x.spool.drop at0).take n).map fun (w : W64) => toBytes 8 w.toNat).flatten)
  else none

/-- Sequencers on which an instruction may run (R226): CVT, TETHER and BCAST do not run on the Gatehouse's. -/
def unitOk (q opc : Nat) : Bool := q < 8 || !(opc = 0x08 || opc = 0x10 || opc = 0x11)

/-- A field that must hold 0. -/
def zero (w : W64) (lo len : Nat) : Bool := decide (fld w lo len = 0)

/-- The NoC port of a sequencer (R228, R235): its Waystation's, or Gatehouse port 0. -/
def portOf (q : Nat) : Nat := q

/-! ### Opening (R235, R244, R245, R248) -/

/-- The block as the instruction opens it (R235): GA to LOCAL, GB to REMOTE, GC to XFER. -/
def Xb.adjust (b : BitVec 512) (ga gb gc : W64) : BitVec 512 :=
  let b := setFld b 128 47 (Xb.local' b + ga.toNat)
  let b := setFld b 64 64 ((Xb.remote b).toNat + gb.toNat)
  setFld b 28 8 (Xb.xfer b + fld gc 0 8)

/-- Size in bits of an element on the wire. -/
def Xb.wbits (b : BitVec 512) : Nat := (Fmt.ofCode (Xb.wfmt b)).map Fmt.width |>.getD 0
/-- Size in bits of a landed element. -/
def Xb.lbits (b : BitVec 512) : Nat := (Fmt.ofCode (Xb.lfmt b)).map Fmt.width |>.getD 0

/-- The checks of R248 at open; true is FORMAT. The mapping is refused as R23, R74 and R95 say, and a sign vector that would run past the
end of the store as R97 says; a PUT that rotates by 256 over an odd number of tiles as R111 says (DEDUCED, log entries 29 and 50). -/
def xferBad (kind : XKind) (b : BitVec 512) (e : StreamEntry) (ue : Bool) : Bool :=
  let wfOk := match Fmt.ofCode (Xb.wfmt b) with | some f => f.isLedger || f == .fp32 || f == .bf16 | none => false
  let lfOk := Xb.lfmt b = 0 || Xb.lfmt b = 2 || Xb.lfmt b = Xb.wfmt b
  let sfOk := if kind = .send then Xb.sfmt b = 0 else Xb.sfmt b = 0 || Xb.sfmt b = 2
  let sbytes := if Xb.sfmt b = 0 then 4 else 2
  ue || Xb.reservedSet b || !wfOk || !lfOk || !sfOk || (Xb.arr b && decide (Xb.lfmt b ≠ 2))
    || (match Fmt.ofCode (Xb.wfmt b) with
        | some f =>
          mapBad e f || (f.isLedger && signsPast e (Xb.nct b))
            || (decide (kind = .put) && srcPair e f && (decide (e.tiles % 2 = 1) || decide (Xb.nct b % 2 = 1)))
        | none => false) || e.smoothEn
    || decide (Xb.local' b % 64 ≠ 0) || decide (Xb.rledger b % 64 ≠ 0) || decide (addrOff (Xb.remote b) % 64 ≠ 0)
    || (kind = .send && decide (Xb.local' b ≠ 0)) || decide (Xb.nrows b = 0) || decide (Xb.nct b = 0)
    || (kind ≠ .send && decide (Xb.spitch b * 64 < Xb.nct b * 128 * sbytes))
    || (!Xb.arr b && decide (Xb.dpitch b * 64 * 8 < Xb.nct b * 128 * Xb.lbits b))

/-- Completion of a transfer that never opened (R248). -/
def Part.xferRefuse (s : Part) (q : Nat) (b : BitVec 512) (status : Nat) : Part :=
  s.signalIf (Xb.evtEn b) q (Xb.event b) (evXfer status (Xb.xfer b) 0)

/-- The next GETREQ of a GET (R200, R246): its body is the header of the response. -/
def Part.nextGet (s : Part) (x : Nat) : Part :=
  match tabFind s.gh.xfers x with
  | none => s
  | some t =>
    if t.kind ≠ .get || t.expected ≤ t.nextTile then s
    else
      let b := t.blk
      let k := tileOf b t.nextTile
      let sz := if Xb.sfmt b = 0 then 4 else 2
      let rows := Xb.tileRows b k.1
      let off := addrOff (Xb.remote b) + 128 * k.1 * Xb.spitch b * 64 + k.2 * 128 * sz
      let rsp := mkHdr b (Xb.wfmt b) (Xb.lfmt b) (Xb.local' b) k.1 k.2 rows 0 (rows * (8 + 16 * Xb.wbits b))
      let h := Gq.mk (Xb.sfmt b) (Xb.wfmt b) (Xb.stream b) rows off (Xb.spitch b) x
      let s := s.onGh fun g => { g with xfers := tabInsert g.xfers x { t with nextTile := t.nextTile + 1 } }
      let dst := addrId (Xb.remote b)
      let m := s.takeMsgid s.ownId
      let s := m.2
      let o (g : Nat) : OutMsg :=
        { ftype := .getreq, dst := dst, lg := g, vl := 5, xfer := BitVec.ofNat 8 x, expectsAck := false, acceptedAt := none,
          buf := none, keepBuf := none, hdr := rsp, keep := [], clips := 0, misfit := false, verdict := .noVerdict, chunk := none }
      if s.answers dst then
        let s := s.onGh fun g => { g with outMsgs := tabInsert g.outMsgs m.1.toNat (o 0) }
        s.localMsg .getreq ⟨0, s.ownId, dst, m.1, h, toBytes 32 rsp.toNat⟩
          (mkFlits .getreq 5 dst s.ownId (s.roleOf dst) m.1 (toBytes 32 h.toNat ++ toBytes 32 rsp.toNat))
      else match s.route dst (Xb.lgmask b) with
        | none => s.xferEnd x 0x20
        | some g =>
          let s := s.onGh fun y => { y with outMsgs := tabInsert y.outMsgs m.1.toNat (o g) }
          s.enqueue g (mkFlits .getreq 5 dst s.ownId (s.roleOf dst) m.1 (toBytes 32 h.toNat ++ toBytes 32 rsp.toNat))

/-- The GETREQs of a GET go out in their order (R246). -/
def Part.pumpGet (x : Nat) : Nat → Part → Part
  | 0, s => s
  | n + 1, s =>
    match tabFind s.gh.xfers x with
    | none => s
    | some t => if t.kind = .get && t.nextTile < t.expected then Part.pumpGet x n (s.nextGet x) else s

/-- Messages that wait and tiles of open transfers that may go on (R31, R192, R246). -/
def Part.pumpXfers (s : Part) : Part :=
  let s := s.pumpOut
  s.each s.gh.xfers fun s t =>
    match t.2.kind with
    | .put => s.nextTile t.1
    | .get => s.pumpGet t.1 4096
    | .send => s

/-- PUT, GET or SEND OPEN at the word `w` of sequencer q (R235, R245, R248): a number still open waits. -/
def Part.openXfer (s : Part) (q : Nat) (kind : XKind) (w : W64) (ue : Bool) : Part :=
  let x := s.seq q
  let d := fld w 19 15
  if d % 8 ≠ 0 then s.seqFault q 3
  else match x.block d 8 with
    | none => s.seqFault q 3
    | some n =>
      let b := Xb.adjust (BitVec.ofNat 512 n) (x.reg (IW.ga w)) (x.reg (IW.gb w)) (x.reg (IW.gc w))
      let k := Xb.xfer b
      if (tabFind s.gh.xfers k).isSome then s.onSeq q fun y => y.park (IW.opc w) 0 (.xfer k ue)
      else
        let e := s.stream (Xb.stream b)
        let s := (s.onSeq q Seq.advance).wake .gh
        if xferBad kind b e ue then s.xferRefuse q b 5
        else if kind ≠ .send && !s.answers (addrId (Xb.remote b)) && (s.route (addrId (Xb.remote b)) (Xb.lgmask b)).isNone then
          s.xferRefuse q b 0x20
        else
          let t : Xfer :=
            { kind := kind, blk := b, se := e, seq := q, expected := Xb.messages b, done := 0, nextTile := 0, status := 0,
              signs := s.signVec e (Xb.nct b) }
          let s := (s.onGh fun g => { g with xfers := tabInsert g.xfers k t }).mirror (.transfer (BitVec.ofNat 8 k) b 0)
          match kind with
          | .put => s.nextTile k
          | .get => s.pumpGet k 4096
          | .send => s

/-! ### Issue (R226, R230, R233, R255) -/

/-- A sequencer that is no longer in RUN: the hold time of its domain counts from here (R313). -/
def Part.seqLeft (s : Part) (q : Nat) : Part := if (s.seq q).st = 1#3 then s else s.worked (seqDom q)

/-- One instruction at its sequencer: it runs only in RUN; PC at or beyond LEN faults with SPOOL; a word of another opcode is not this
instruction; a reserved field faults with RESERVED, a sequencer the table does not allow with UNIT (R226, R255). -/
def Part.instr (s : Part) (q opc : Nat) (isThis reserved : W64 → Bool) (body : Part → W64 → Part) : Part :=
  let x := s.seq q
  if x.st ≠ 1#3 || s.glob.fencedSelf then s
  else match x.word with
    | none => ((s.seqFault q 3).mirrorSeq q).seqLeft q
    | some w =>
      if IW.opc w ≠ opc || !isThis w then s
      else
        let t := if reserved w then s.seqFault q 2 else if !unitOk q opc then s.seqFault q 4 else body s w
        (t.mirrorSeq q).seqLeft q

/-- A taken branch (R239): a target at or beyond LEN faults with SPOOL. -/
def Part.branch (s : Part) (q target : Nat) (f : Seq → Seq) : Part :=
  if (s.seq q).spool.length ≤ target then s.seqFault q 3
  else s.onSeq q fun x => { (f x).advance with pc := BitVec.ofNat 15 target }

end Sys2Proof.Machine
end

