-- ==== Sys2Proof/Machine/Tether.lean ====
section
/-! DEFINITION. Tether reduction (R164 to R190, R258, R262, R263): where a chunk goes, what a member adds, what it keeps, sends and
delivers. -/

namespace Sys2Proof.Machine

/-! ### Contexts and chunks -/

def Part.setCtx (s : Part) (bank c : Nat) (x : Ctx) : Part :=
  if bank = 0 then { s with ctxs := tabInsert s.ctxs c x } else { s with twinCtxs := tabInsert s.twinCtxs c x }
def Part.dropCtx (s : Part) (bank c : Nat) : Part :=
  if bank = 0 then { s with ctxs := tabErase s.ctxs c } else { s with twinCtxs := tabErase s.twinCtxs c }
def Part.onCtx (s : Part) (bank c : Nat) (f : Ctx → Ctx) : Part :=
  match s.ctxOf bank c with
  | some x => s.setCtx bank c (f x)
  | none => s
def Ctx.chunk (x : Ctx) (n : Nat) : Chunk := tabGet x.chunks n .reset
def Ctx.onChunk (x : Ctx) (n : Nat) (f : Chunk → Chunk) : Ctx := { x with chunks := tabMod x.chunks n .reset f }
def Part.onChunk (s : Part) (bank c n : Nat) (f : Chunk → Chunk) : Part := s.onCtx bank c fun x => x.onChunk n f
/-- The identity a bank's contexts belong to. -/
def Part.bankId (s : Part) (bank : Nat) : FabId := if bank = 0 then s.ownId else s.gh.identTwin
/-- A status bit of R189. -/
def Ctx.mark (x : Ctx) (b : Bool) (i : Nat) : Ctx := if b then { x with status := setBitAt x.status i } else x

/-- WL_WS_TETHER_STATUSc and CHUNKSc follow the context (R189, R343). -/
def Part.tetherRegs' (s : Part) (bank c : Nat) : Part :=
  if bank ≠ 0 then s
  else match s.ctxOf 0 c with
    | some x => { s with tetherRegs := tabInsert s.tetherRegs c (Tb.hopWs x.blk, x.status, x.deliveredCnt) }
    | none => s

/-- A status bit of R189, in the register of HOP_WS too (R343). -/
def Part.ctxMark (s : Part) (bank c : Nat) (b : Bool) (i : Nat) : Part := if b then (s.onCtx bank c fun x => x.mark true i).tetherRegs' bank c else s

/-- A late or foreign chunk is counted at a Waystation (R185), with trace point 0x0301 and the SEQ it came with. -/
def Part.tetherLate (s : Part) (w : Nat) (x : Ctx) (n seq : Nat) : Part :=
  (s.onWs w fun y => { y with tetherLate := satAdd y.tetherLate 1 }).trace 0 0x0301
    [BitVec.ofNat 32 (Tb.group x.blk), BitVec.ofNat 32 n, BitVec.ofNat 32 seq]

/-- The member that a bank's context serves drops out of the step, and the manager is told (R36, R273, R279): reason 1 absent, 2 late. -/
def Part.dropped (s : Part) (bank : Nat) (x : Ctx) (reason : Nat) : Part :=
  s.tellManager (s.bankId bank) (Tb.group x.blk) 0x22 (BitVec.ofNat 16 (Tb.seq x.blk)) 0 (Tb.rank x.blk) reason

/-! ### The group table (R165, R171, R262) -/

def noMember : Member := ⟨0, 0, 0, true⟩
def GroupImage.member (g : GroupImage) (r : Nat) : Member := g.members.getD r noMember
/-- The ranks of rack group k in ring order. -/
def GroupImage.rack (g : GroupImage) (k : Nat) : List Nat :=
  (List.range g.members.length).filter fun r => decide ((g.member r).rack.toNat = k)
def GroupImage.deadRank (g : GroupImage) (r : Nat) : Bool := (g.member r).dead

/-- From position p on a ring of m, after h positions: dead positions are passed with one hop each (R262); the next live position, or
none where the stage ends. -/
def ringWalk (m : Nat) (dead : Nat → Bool) (p : Nat) : Nat → Nat → Nat → Nat × Option Nat
  | 0, h, _ => (h, none)
  | fuel + 1, h, d =>
    if m ≤ h then (h, none)
    else if dead ((p + d) % m) then ringWalk m dead p fuel (h + 1) (d + 1)
    else (h, some ((p + d) % m))

/-- The acting end of rack group k for a chunk: the last live member at or before e_k(c) in ring order (R171, R262). -/
def GroupImage.actingEnd (g : GroupImage) (k c : Nat) : Option Nat :=
  let rs := g.rack k
  let m := rs.length
  ((List.range m).map fun d => rs.getD ((c + 2 * m - 1 - d) % max 1 m) 0).find? fun r => !g.deadRank r

/-- The table of a context's group. -/
def Part.tableOf (s : Part) (x : Ctx) : Option GroupImage :=
  match tabFind s.groups (Tb.group x.blk) with
  | some g => some g.img
  | none => (tabFind s.twin.mirror.members (Tb.group x.blk)).map Prod.fst

/-- This member's next live position in its rack ring after `h` positions, as (hops, identity). -/
def Ctx.rackNext (x : Ctx) (g : GroupImage) (h : Nat) : Nat × Option FabId :=
  let rs := g.rack (Tb.hpos x.blk)
  let m := Tb.rsize x.blk + 1
  let w := ringWalk m (fun p => g.deadRank (rs.getD p 0)) (Tb.rpos x.blk) (m + 1) h 1
  (w.1, w.2.map fun p => (g.member (rs.getD p 0)).ident)
/-- The next rack group with a live end, as (hops, identity). -/
def Ctx.hallNext (x : Ctx) (g : GroupImage) (c h : Nat) : Nat × Option FabId :=
  let n := Tb.hsize x.blk + 1
  let w := ringWalk n (fun k => (g.actingEnd k c).isNone) (Tb.hpos x.blk) (n + 1) h 1
  (w.1, w.2.bind fun k => (g.actingEnd k c).map fun r => (g.member r).ident)

/-- Rack stage: this member stands at the start of chunk c, or is its successor (R184, R262): the first live position after it. -/
def Ctx.isStart (x : Ctx) (c : Nat) : Bool := decide (c % (Tb.rsize x.blk + 1) = Tb.rpos x.blk)
def Ctx.isSuccessor (x : Ctx) (g : GroupImage) (c : Nat) : Bool :=
  let rs := g.rack (Tb.hpos x.blk)
  let m := Tb.rsize x.blk + 1
  !x.isStart c &&
    (ringWalk m (fun p => g.deadRank (rs.getD p 0)) (c % m) (m + 1) 1 1).2 == some (Tb.rpos x.blk)
/-- Hall stage: the same by rack groups. -/
def Ctx.isHallStart (x : Ctx) (c : Nat) : Bool := decide (c % (Tb.hsize x.blk + 1) = Tb.hpos x.blk)
def Ctx.isHallSuccessor (x : Ctx) (g : GroupImage) (c : Nat) : Bool :=
  let n := Tb.hsize x.blk + 1
  !x.isHallStart c &&
    (ringWalk n (fun k => (g.actingEnd k c).isNone) (c % n) (n + 1) 1 1).2 == some (Tb.hpos x.blk)

/-! ### Units -/

/-- A context sums in X48: its format, or a rank at or beyond 4,096 (R172). -/
def Ctx.x48 (x : Ctx) : Bool := decide (Tb.fmt x.blk = 0x1D) || decide (4096 ≤ Tb.rank x.blk)
/-- Element index of element 0 of unit n (R170). -/
def Ctx.i0 (x : Ctx) (n : Nat) : Nat := (Tb.ibase x.blk + n * 128) % 2 ^ 40
/-- The unit of COUNT 0 with ABSENT (R79, R263), in the context's own format: no entry is made. -/
def Ctx.emptyUnit (x : Ctx) : RsUnit :=
  { led := { (baseRec x.se.epoch false false false false) with scale := unitScale x.exp0, count := 0#16, absent := true, exact := decide (Tb.fmt x.blk = 0x1D) },
    ue := x.exp0, els := List.replicate 128 (.fin 0) }
def setAbsent (u : RsUnit) : RsUnit := { u with led := { u.led with absent := true } }
/-- Bytes of one unit on the wire in a format (R168). -/
def wireUnit (f : Fmt) : Nat := 8 + 16 * f.width
/-- Credits of a chunk's buffer in its phase (R168, R190). -/
def Ctx.chunkCredits (x : Ctx) (phase : Nat) (f : Fmt) : Nat :=
  if phase < 2 then 64 else (16 + Tb.uc x.blk * wireUnit f + 1023) / 1024

/-- A contribution as it starts a chunk, unchanged (R175), in its own format. A finite sum of deposits beyond that format's range is an
overflow like any other (R93, R172): it is replayed with u doubled up to 8u0, and marked and poisoned beyond (R174). -/
def Ctx.fit (x : Ctx) (n : Nat) (u : RsUnit) : RsUnit :=
  if u.els.all (inRange (maxMant u.led.exact)) then { u with led := { u.led with scale := unitScale u.ue } }
  else
    let r := hopLoop { x48 := u.led.exact, key := x.se.key, h := Tb.rank x.blk, i0 := x.i0 n } x.exp0 u { u with els := [] } 4 u.ue
    { led := { u.led with scale := unitScale r.1, poison := u.led.poison || r.2.2 }, ue := r.1, els := r.2.1 }

/-! ### Output -/

/-- Units that pass dead positions on a ring have ABSENT set (R262), in the broadcast as in the reduction: the last position reached against
that of the next one. -/
def passDead (h reached : Nat) (us : List LUnit) : List LUnit :=
  if h < reached then us.map fun u => { u with led := { u.led with absent := true } } else us

/-- A chunk waits for its forwarding buffer (R190): requested by HOP_WS, consumed by the Gatehouse. -/
def Part.emitRow (s : Part) (bank c : Nat) (x : Ctx) (o : OutRow) : Part :=
  let r := s.larderReq (64 + Tb.hopWs x.blk) 72 (x.chunkCredits o.phase o.fmt)
  r.2.onCtx bank c fun y => { y with outs := y.outs ++ [{ o with need := r.1, owned := true }] }

/-- The running row leaves this member in the rack stage, or the stage ends here (R171, R173, R262). `rel` is the buffer it came in. -/
def mkOut (chunk phase : Nat) (dst : FabId) (hops : Nat) (fmt : Fmt) (be st : Bool) (units : List LUnit) (rel : Option Nat) : OutRow :=
  { chunk := chunk, phase := phase, dst := some dst, hops := hops, fmt := fmt, boundExt := be, startTaken := st, units := units,
    need := 0, owned := true, rel := rel }

/-- The finisher's result goes out: delivered here, around the hall and around its rack (R171, R188, R252). -/
def Part.releaseFinished (s : Part) (bank c n : Nat) : Part :=
  match s.ctxOf bank c with
  | none => s
  | some x =>
    match (x.chunk n).finished, s.tableOf x with
    | some row, some g =>
      let need := row.buf.getD 0
      let own (phase h : Nat) (d : FabId) : OutRow :=
        { mkOut n phase d h row.fmt row.boundExt row.startTaken (passDead 1 h row.units) none with need := need, owned := false }
      let here : OutRow := { own 3 0 0 with dst := none, units := row.units }
      let hall := x.hallNext g n 1
      let rack := x.rackNext g 1
      let outs := [here] ++ (match hall.2 with | some d => [own 2 hall.1 d] | none => [])
        ++ (match rack.2 with | some d => [own 3 rack.1 d] | none => [])
      s.onCtx bank c fun y => { (y.onChunk n fun k => { k with bcastHeld := false }) with outs := y.outs ++ outs }
    | _, _ => s

/-- The finisher converts each unit once into RFMT (R187). -/
def Ctx.resultUnit (x : Ctx) (u : RsUnit) : LUnit :=
  match Fmt.ofCode (Tb.rfmt x.blk) with
  | none => u.toUnit
  | some f =>
    if f.isRun then u.toUnit
    else
      let vals := u.els.map (RsEl.val u.ue)
      let base := { u.led with exact := false, zp := 0#8 }
      if f.isLedger then
        let r := narrowUnit f false (liveScale f { x.se with map := false } false vals) base vals
        r.1
      else wideUnit f base vals

/-- The Envelope of a stream number in a bank: after a takeover the failed instance's stream has one of its own where the number is in use by
this instance too (R130). -/
def Part.feedBank (s : Part) (bank n : Nat) (vals : List Val) : Part :=
  match (if bank = 0 then none else tabFind s.ssu.twinEnvs n), maxOf vals, minOf vals with
  | some v, some hi, some lo => s.onSsu fun u => { u with twinEnvs := tabInsert u.twinEnvs n (v.feed hi lo) }
  | _, _, _ => s.feed n vals

/-- Result units whose buffer has been granted have their records written and feed their stream (R127). -/
def Part.feedResults (s : Part) (bank c : Nat) : Part :=
  match s.ctxOf bank c with
  | none => s
  | some x =>
    let due := x.chunks.filter fun k => !k.2.unfed.isEmpty && k.2.finished.any fun r => r.buf.isSome && s.grantedOpt r.buf
    s.each due fun s k =>
      (s.each k.2.unfed fun s u => s.feedBank bank (Tb.stream x.blk) (u.els.map (RsEl.val u.ue))).onChunk bank c k.1 fun z => { z with unfed := [] }

/-- A chunk is finished at this member (R187, R252, R258). A unit encoded in another format than the running one feeds its stream as its record
is written, into the result buffer (R127).
BCAST names no context of a failed twin: its finished chunks go out at once (R252, R263). -/
def Part.finishChunk (s : Part) (bank c n : Nat) (units : List RsUnit) (be st : Bool) : Part :=
  match s.ctxOf bank c with
  | none => s
  | some x =>
    let f := (Fmt.ofCode (Tb.rfmt x.blk)).getD .t16
    let f := if f.isRun then runFmt (units.any fun u => u.led.exact) else f
    let r := s.larderReq (64 + Tb.hopWs x.blk) 72 (x.chunkCredits 3 f)
    let row : RowSet :=
      { boundExt := be, startTaken := st, hops := 0, fmt := f, units := units.map x.resultUnit, buf := some r.1, arrived := s.now }
    let hold := Tb.bhold x.blk && !x.bcast && x.role ≠ .twin
    let replayed := units.any fun u => decide (x.exp0 < u.ue)
    let s := r.2.onCtx bank c fun y =>
      y.onChunk n fun k => { k with finished := some row, bcastHeld := hold, unfed := if f.isRun then [] else units }
    let s := s.ctxMark bank c replayed 4
    let s := if bank = 0 then s.mirror (.chunkFinished (Fin.ofNat 64 c) n) else s
    if hold then s else s.releaseFinished bank c n

/-! ### Hops -/

/-- The hop of every unit of a chunk (R173). -/
def Ctx.hopUnits (x : Ctx) (n : Nat) (a b : List RsUnit) : List RsUnit :=
  a.zipIdx.map fun (u, i) =>
    hopUnit x.se.key (x.i0 (n * Tb.uc x.blk + i)) (Tb.rank x.blk) x.exp0 u (b.getD i x.emptyUnit)

/-- This member's entry or hop carries a row in X48 by its rank (R177): BOUND_EXT. -/
def Ctx.extends (x : Ctx) (units : List RsUnit) : Bool := decide (4096 ≤ Tb.rank x.blk) && units.any fun u => u.led.exact
def Part.noteExt (s : Part) (x : Ctx) (n : Nat) (ext : Bool) : Part :=
  if ext then s.guest 1 1 0x0307 [BitVec.ofNat 32 (Tb.group x.blk), BitVec.ofNat 32 n] else s

/-- After this member's part of the hall stage: on to the next rack group, or finished (R171). `acted`: the member made its entry or its
hop (R177). -/
def Part.afterHall (s : Part) (bank c n : Nat) (units : List RsUnit) (hops : Nat) (be st acted : Bool) (rel : Option Nat) : Part :=
  match s.ctxOf bank c with
  | none => s
  | some x =>
    match s.tableOf x with
    | none => s
    | some g =>
      let ext := acted && x.extends units
      let s := s.noteExt x n ext
      let be := be || ext
      let w := x.hallNext g n hops
      let us := if hops < w.1 then units.map setAbsent else units
      match w.2 with
      | some d =>
        s.emitRow bank c x (mkOut n 1 d w.1 (runFmt (us.any fun u => u.led.exact)) be st (us.map RsUnit.toUnit) rel)
      | none => (s.release rel).finishChunk bank c n us be st

/-- The BUDGET window of a context that opened at `t` (R183, R184, R186) has ended at `now`. -/
def Ctx.budgetOver (x : Ctx) (t now : Nat) : Bool := decide (t + Tb.budget x.blk * 1000 ≤ now)

/-- A whole rack group is absent for a chunk (R186): the held hall row goes on with ABSENT. -/
def Part.hallAbsent (s : Part) (bank c n : Nat) (a : RowSet) : Part :=
  match s.ctxOf bank c with
  | none => s
  | some x =>
    let s := s.onChunk bank c n fun k => { k with hallDone := true, heldHall := none }
    let s := (s.guest 1 1 0x0302 [BitVec.ofNat 32 (Tb.group x.blk), BitVec.ofNat 32 n]).dropped bank x 1
    s.afterHall bank c n (a.units.map fun u => setAbsent (RsUnit.ofUnit a.fmt u)) (a.hops + 1) a.boundExt a.startTaken false a.buf

/-- A chunk is late at its member (R185): counted and traced once, LATE_SEEN. -/
def Part.chunkLate (s : Part) (bank c n : Nat) : Part :=
  match s.ctxOf bank c with
  | none => s
  | some x =>
    if (x.chunk n).late then s
    else ((s.onChunk bank c n fun k => { k with late := true }).ctxMark bank c true 5).tetherLate (Tb.hopWs x.blk) x n (Tb.seq x.blk)

/-- A running row of a phase is on its way in (R139, R183): the stamp at which the flit with its chunk header was accepted. -/
def Part.rowComing (s : Part) (bank c n phase : Nat) : Option Nat :=
  match s.ctxOf bank c with
  | none => none
  | some x =>
    let ins := x.ins.filterMap fun i =>
      if Ch.chunk i.hdr = n && decide (Ch.phase i.hdr = phase) then some i.row.arrived else none
    let asms := ((List.range 8).map fun g => (s.lg g).asms.filterMap fun a =>
      let h := BitVec.ofNat 128 (ofBytes (a.bytes.take 16))
      if a.ftype = .tether && decide (a.fate = .accepted) && decide (a.dst = s.bankId bank) && decide (Ch.group h = Tb.group x.blk)
          && decide (Ch.seq h = Tb.seq x.blk) && decide (Ch.chunk h = n) && decide (Ch.phase h = phase) then some a.first
      else none).flatten
    (ins ++ asms).head?

/-- The hall stage at an acting end that holds its rack row (R171, R186): a rack row that came at or after the end of the window that the
hall row's header opened is late, though the hall row reaches its buffer after it (R138, R139). -/
def Part.hallStep (s : Part) (bank c n : Nat) : Part :=
  match s.ctxOf bank c with
  | none => s
  | some x =>
    let ch := x.chunk n
    match ch.rackRow with
    | none => s
    | some r =>
      if ch.hallDone || ch.replay = .prepped then s
      else
        let mine := r.units.map (RsUnit.ofUnit r.fmt)
        if x.isHallStart n then
          (s.onChunk bank c n fun k => { k with hallDone := true }).afterHall bank c n mine 1 r.boundExt r.startTaken true none
        else match ch.heldHall with
          | some a =>
            if x.budgetOver a.arrived r.arrived then
              (((s.onChunk bank c n fun k => { k with rackRow := none }).release r.buf).hallAbsent bank c n a).chunkLate bank c n
            else
              (s.onChunk bank c n fun k => { k with hallDone := true, heldHall := none }).afterHall bank c n
                (x.hopUnits n (a.units.map (RsUnit.ofUnit a.fmt)) mine) (a.hops + 1) (a.boundExt || r.boundExt) (a.startTaken || r.startTaken) true
                a.buf
          | none =>
            match s.tableOf x with
            | some g =>
              if x.isHallSuccessor g n && ch.startAt.isNone && (s.rowComing bank c n 1).isNone then
                let t := s.now
                s.onChunk bank c n fun k => { k with startAt := some t }
              else s
            | none => s

/-- The rack stage ends here (R171, R258): the row is kept; with one rack group this member is the finisher. A rack row that comes at or
after the end of the hall row's window is late (R185, R186). -/
def Part.rackDone (s : Part) (bank c n : Nat) (units : List RsUnit) (be st : Bool) (buf : Option Nat) : Part :=
  match s.ctxOf bank c with
  | none => s
  | some x =>
    if Tb.hsize x.blk = 0 then (s.release buf).finishChunk bank c n units be st
    else
      let ch := x.chunk n
      let s := match ch.heldHall with
        | some a => if !ch.hallDone && x.budgetOver a.arrived s.now then s.hallAbsent bank c n a else s
        | none => s
      let done := match s.ctxOf bank c with | some y => (y.chunk n).hallDone | none => true
      if done then (s.release buf).chunkLate bank c n
      else
        let row : RowSet :=
          { boundExt := be, startTaken := st, hops := 0, fmt := runFmt (units.any fun u => u.led.exact), units := units.map RsUnit.toUnit,
            buf := buf, arrived := s.now }
        (s.onChunk bank c n fun k => { k with rackRow := some row, startAt := none }).hallStep bank c n

/-- After this member's part of the rack stage. `acted`: the member made its entry or its hop. In X48 at a rank of 4,096 or more that sets
BOUND_EXT (R177). -/
def Part.afterRack (s : Part) (bank c n : Nat) (units : List RsUnit) (hops : Nat) (be st acted : Bool) (rel : Option Nat) : Part :=
  match s.ctxOf bank c with
  | none => s
  | some x =>
    match s.tableOf x with
    | none => s
    | some g =>
      let ext := acted && x.extends units
      let s := s.noteExt x n ext
      let be := be || ext
      let w := x.rackNext g hops
      let us := if hops < w.1 then units.map setAbsent else units
      match w.2 with
      | some d => s.emitRow bank c x (mkOut n 0 d w.1 (runFmt (us.any fun u => u.led.exact)) be st (us.map RsUnit.toUnit) rel)
      | none => s.rackDone bank c n us be st rel

/-- The deposits of a chunk are discarded (R183, R185): their accumulators go back, and the deposit buffers that no other chunk needs. -/
def Part.dropDeps (s : Part) (bank c n : Nat) : Part :=
  match s.ctxOf bank c with
  | none => s
  | some x =>
    let ch := x.chunk n
    let bs := ch.accs.map Prod.snd ++ ch.depBufs.filter fun b => !(x.chunks.any fun k => decide (k.1 ≠ n) && k.2.depBufs.contains b)
    (s.each bs fun s b => s.release (some b)).onChunk bank c n fun k => { k with deps := [], accs := [], depBufs := [] }

/-- The own contribution, or none where the member acts without one (R263, R308). -/
def Ctx.contribution (x : Ctx) (n : Nat) : Option (List RsUnit) := if x.role = .member then (x.chunk n).contrib else none

/-- The start of a chunk at this member (R175, R263): its contribution unchanged, HOPS 1, or a row of COUNT 0, for which it is absent as in
R183 (R279, R312). -/
def Part.startChunk (s : Part) (bank c n hops : Nat) (taken : Bool) : Part :=
  match s.ctxOf bank c with
  | none => s
  | some x =>
    let us := match x.contribution n with
      | some us => us.zipIdx.map fun (u, i) => x.fit (n * Tb.uc x.blk + i) u
      | none => List.replicate (Tb.unitsOf x.blk n) x.emptyUnit
    let us := if taken then us.map setAbsent else us
    let s := if (x.contribution n).isSome then s
      else (s.guest 1 1 0x0302 [BitVec.ofNat 32 (Tb.group x.blk), BitVec.ofNat 32 n]).dropped bank x 1
    (s.onChunk bank c n fun k => { k with hopDone := true, startAt := none, go := false, absent := (x.contribution n).isNone }).afterRack bank c
      n us hops false taken (x.contribution n).isSome none

/-- A member is absent for a chunk (R183), one in the Harbour or served by its twin as well (R263, R279, R308): its partial deposits are
discarded, the row goes on unchanged with ABSENT. -/
def Part.forwardAbsent (s : Part) (bank c n : Nat) (a : RowSet) : Part :=
  match s.ctxOf bank c with
  | none => s
  | some x =>
    let s := (s.dropDeps bank c n).onChunk bank c n fun k => { k with hopDone := true, held := none, absent := true }
    let s := s.guest 1 1 0x0302 [BitVec.ofNat 32 (Tb.group x.blk), BitVec.ofNat 32 n]
    let s := s.dropped bank x 1
    s.afterRack bank c n (a.units.map fun u => setAbsent (RsUnit.ofUnit a.fmt u)) (a.hops + 1) a.boundExt a.startTaken false a.buf

/-- A contribution that is complete only at or after its window's end is late (R185): nothing of it is added. -/
def Part.contribLate (s : Part) (bank c n : Nat) : Part :=
  match s.ctxOf bank c with
  | none => s
  | some x =>
    ((((s.dropDeps bank c n).onChunk bank c n fun k => { k with contrib := none, contribAt := none }).chunkLate bank c n)).dropped bank x 2

/-- The successor of a chunk's start takes the start at its window's end (R184): its units ABSENT, HOPS one more than the positions passed
over. -/
def Part.successorStart (s : Part) (bank c n : Nat) : Part :=
  match s.ctxOf bank c with
  | none => s
  | some x =>
    let m := Tb.rsize x.blk + 1
    (s.guest 1 2 0x0303 [BitVec.ofNat 32 (Tb.group x.blk), BitVec.ofNat 32 n]).startChunk bank c n
      ((Tb.rpos x.blk + m - n % m) % m + 1) true
/-- The same in the hall stage, with the finished rack row. -/
def Part.hallSuccessorStart (s : Part) (bank c n : Nat) : Part :=
  match s.ctxOf bank c with
  | none => s
  | some x =>
    match (x.chunk n).rackRow with
    | none => s
    | some r =>
      let h := Tb.hsize x.blk + 1
      let s := (s.guest 1 2 0x0303 [BitVec.ofNat 32 (Tb.group x.blk), BitVec.ofNat 32 n]).onChunk bank c n fun k =>
        { k with hallDone := true, startAt := none }
      s.afterHall bank c n (r.units.map fun u => setAbsent (RsUnit.ofUnit r.fmt u)) ((Tb.hpos x.blk + h - n % h) % h + 1) r.boundExt true true none

/-- What can be done on the rack stage of a chunk (R173, R175, R183, R184, R260, R263). The successor's window opens with its contribution; in a
replay, whose GO starts the chunk, with a contribution that completes after ARM. -/
def Part.rackStep (s : Part) (bank c n : Nat) : Part :=
  match s.ctxOf bank c with
  | none => s
  | some x =>
    let ch := x.chunk n
    if ch.hopDone || ch.replay = .prepped || x.opening then s
    else if x.isStart n then
      if ch.replay = .running && ((x.contribution n).isSome || x.role ≠ .member) then s.startChunk bank c n 1 false else s
    else match ch.held, x.contribution n with
      | some a, some us =>
        if (match ch.contribAt with | some t => x.budgetOver a.arrived t | none => false) then
          (s.forwardAbsent bank c n a).contribLate bank c n
        else
          (s.onChunk bank c n fun k => { k with hopDone := true, held := none, startAt := none }).afterRack bank c n
            (x.hopUnits n (a.units.map (RsUnit.ofUnit a.fmt)) us) (a.hops + 1) a.boundExt a.startTaken true a.buf
      | some a, none => if x.role = .member then s else s.forwardAbsent bank c n a
      | none, some _ =>
        match s.tableOf x with
        | some g =>
          if ch.go && x.isSuccessor g n then s.startChunk bank c n ((Tb.rpos x.blk + (Tb.rsize x.blk + 1) - n % (Tb.rsize x.blk + 1)) % (Tb.rsize x.blk + 1) + 1) true
          else if x.isSuccessor g n && ch.startAt.isNone && (decide (ch.replay = .running) || decide (ch.contribAt = some s.now))
              && (s.rowComing bank c n 0).isNone then
            let t := s.now
            s.onChunk bank c n fun k => { k with startAt := some t }
          else s
        | none => s
      | none, none => s

/-! ### Delivery (R188, R189) -/

/-- Every chunk is done at this member. -/
def Ctx.allDone (x : Ctx) : Bool :=
  decide ((x.chunks.filter fun k => if x.role = .twin then k.2.forwarded else k.2.delivered).length = Tb.chunks x.blk)

/-- Copies of a chunk's result still wait to go out. -/
def Ctx.resultWaits (x : Ctx) (n : Nat) : Bool := x.outs.any fun o => decide (o.chunk = n) && decide (2 ≤ o.phase) && o.dst.isSome

/-- The arriving broadcast buffer goes back once its last unit has been copied and delivered (R190). -/
def Part.resultFree (s : Part) (bank c n : Nat) : Part :=
  match s.ctxOf bank c with
  | none => s
  | some x =>
    let ch := x.chunk n
    if ch.delBuf.isSome && decide (ch.due = 0) && !x.resultWaits n then
      (s.release ch.delBuf).onChunk bank c n fun k => { k with delBuf := none }
    else s

/-- A chunk has been delivered, or forwarded where the member delivers nothing; the last one sends DELIVERED (R189, R343). -/
def Part.chunkDone (s : Part) (bank c n : Nat) : Part :=
  let s := s.onCtx bank c fun x =>
    let x := { x with deliveredCnt := if (x.chunk n).counted then x.deliveredCnt else x.deliveredCnt + 1 }
    x.onChunk n fun k => { k with delivered := true, forwarded := true, counted := true, stallAt := none }
  match s.ctxOf bank c with
  | none => s
  | some x =>
    let s := if x.allDone && !x.doneSent then
        (s.onCtx bank c fun x => { (x.mark true 0) with doneSent := true }).tellManager (s.bankId bank) (Tb.group x.blk) 0x16
          (BitVec.ofNat 16 (Tb.seq x.blk)) 0 (Tb.rank x.blk) 0
      else s
    (s.tetherRegs' bank c).resultFree bank c n

/-- A member that delivers nothing has done with a chunk when it has forwarded its result (R189, R263). -/
def Part.twinDone (s : Part) (bank c n : Nat) : Part :=
  match s.ctxOf bank c with
  | some x => if x.role = .twin && !x.resultWaits n then s.chunkDone bank c n else s
  | none => s

/-- The values of a result unit. -/
def resultVals (f : Fmt) (u : LUnit) : List Val :=
  if f.isRun then let r := RsUnit.ofUnit f u; r.els.map (RsEl.val r.ue) else decodeUnit f 128 u

/-- The other unit of a block of 256 elements that spans tiles 2k and 2k + 1 of a row (R111): the neighbour in the chunk. -/
def Ctx.otherHalf (x : Ctx) (vals : List (List Val)) (n' i : Nat) : OtherHalf :=
  let t := n' % x.se.tiles
  if t % 2 = 0 then (if t + 1 < x.se.tiles then match vals[i + 1]? with | some v => .upper v | none => .absent else .absent)
  else if i = 0 then .absent
  else match vals[i - 1]? with | some v => .lower v | none => .absent

/-- Delivery of a chunk's result at this member (R188): each unit by the inverse series into DFMT, written through HOP_WS's port. -/
def Part.deliver (s : Part) (bank c n : Nat) (row : RowSet) : Part :=
  match s.ctxOf bank c with
  | none => s
  | some x =>
    if x.role = .twin then s
    else
      let b := x.blk
      let d := (Fmt.ofCode (Tb.dfmt b)).getD .fp32
      let vals := row.units.map (resultVals row.fmt)
      let us := row.units.zipIdx.map fun (u, i) =>
        let n' := n * Tb.uc b + i
        let c0 := 128 * (n' % x.se.tiles)
        let o := inverseVals x.se x.signs (smoothVals (Tb.stream b) x.se c0 128) c0 (Tb.avg b) (x.otherHalf vals n' i) u.led (vals.getD i [])
        (Tb.dest b + n' * Tb.dpitch b * 64, deliverWide d o, o.ledgerErr)
      let s := s.ledgerErr (us.filter fun u => u.2.2).length
      let s := s.onCtx bank c fun y =>
        let y := (((y.mark row.boundExt 1).mark (row.units.any fun u => u.led.absent) 2).mark (row.units.any fun u => u.led.poison) 3).mark
          (row.fmt.isRun && row.units.any fun u => decide (x.exp0 < scaleExp u.led.scale)) 4
        (y.mark row.startTaken 6).onChunk n fun k => { k with due := k.due + sumN (us.map fun u => writePieces u.1 u.2.1.length) }
      (s.each us fun s u => s.nocWrite (Tb.hopWs b) u.1 u.2.1 (.deliver bank c n)).tetherRegs' bank c

/-- The result of a chunk has come, and its start member has not started it: the successor has (R184), and what the member may still
contribute is late (R185). -/
def Part.startMissed (s : Part) (bank c n : Nat) : Part :=
  match s.ctxOf bank c with
  | none => s
  | some x =>
    let ch := x.chunk n
    if x.role = .member && x.isStart n && !ch.hopDone then
      (((s.dropDeps bank c n).onChunk bank c n fun k => { k with hopDone := true, absent := true }).guest 1 1 0x0302
        [BitVec.ofNat 32 (Tb.group x.blk), BitVec.ofNat 32 n]).dropped bank x 1
    else s

/-- The same in the hall stage: the start of the hall stage has not sent its rack row, and one that completes later is late (R184 to R186). -/
def Part.hallMissed (s : Part) (bank c n : Nat) : Part :=
  match s.ctxOf bank c with
  | none => s
  | some x =>
    if Tb.hsize x.blk = 0 || !x.isHallStart n || (x.chunk n).hallDone then s
    else
      let s := s.onChunk bank c n fun k => { k with hallDone := true }
      if (s.tableOf x).bind (fun g => g.actingEnd (Tb.hpos x.blk) n) = some (Tb.rank x.blk) then
        (s.guest 1 1 0x0302 [BitVec.ofNat 32 (Tb.group x.blk), BitVec.ofNat 32 n]).dropped bank x 1
      else s

/-- A result arrives in a phase of the broadcast: it goes on unchanged and is delivered (R171, R188, R190). A rack end that sends a hall
result on around the hall and into its rack asks for a forwarding buffer for each, since each message ends at its own last flit (R22; the
rules do not say whether one would do; DESIGN CHOICE, log entry 50). -/
def Part.resultStep (s : Part) (bank c n phase : Nat) (row : RowSet) : Part :=
  match s.ctxOf bank c with
  | none => s
  | some x =>
    match s.tableOf x with
    | none => s.release row.buf
    | some g =>
      let out (ph h : Nat) (w : Nat × Option FabId) : List OutRow :=
        match w.2 with
        | some d => [mkOut n ph d w.1 row.fmt row.boundExt row.startTaken (passDead h w.1 row.units) none]
        | none => []
      let h := row.hops + 1
      let outs := if phase = 2 then out 2 h (x.hallNext g n h) ++ out 3 1 (x.rackNext g 1) else out 3 h (x.rackNext g h)
      let s := if bank = 0 && outs.isEmpty then s.mirror (.chunkForwarded (Fin.ofNat 64 c) n phase) else s
      let s := (((s.startMissed bank c n).hallMissed bank c n).onChunk bank c n fun k => { k with delBuf := row.buf }).deliver bank c n row
      ((outs.foldl (fun s o => Part.emitRow s bank c x o) s).twinDone bank c n).resultFree bank c n

/-! ### Windows -/

/-- The stall window opens or reopens (R259): the contribution is complete and the chunk's row or result is awaited. A window that has
ended first is reported (R138). -/
def Part.openStall (s : Part) (bank c n : Nat) : Part :=
  match s.ctxOf bank c with
  | none => s
  | some x =>
    let ch := x.chunk n
    let s := match ch.stallAt with
      | some t => if s.ended t (s.ws (Tb.hopWs x.blk)).stallTmo.toNat then s.stallOf (bank, c, n) 7 else s
      | none => s
    if (x.contribution n).isSome && !ch.delivered && ch.finished.isNone then
      let t := s.now
      s.onChunk bank c n fun k => { k with stallAt := some t }
    else s

/-! ### Arrivals -/

/-- A running row or result enters its context once its buffer is granted (R173, R183 to R186). -/
def Part.rowIn (s : Part) (bank c : Nat) (i : InRow) : Part :=
  match s.ctxOf bank c with
  | none => s.release (some i.need)
  | some x =>
    let n := Ch.chunk i.hdr
    let ch := x.chunk n
    let w := Tb.hopWs x.blk
    let lateRow (s : Part) : Part := (s.release (some i.need)).chunkLate bank c n
    if ch.replay = .prepped then
      (s.release (some i.need)).onWs w fun y => { y with replayDiscard := satAdd y.replayDiscard 1 }
    else
      let s := s.openStall bank c n
      let past := match ch.startAt with | some t => x.budgetOver t i.row.arrived | none => false
      match Ch.phase i.hdr with
      | 0 => if ch.hopDone || ch.held.isSome then lateRow s
          else if past then lateRow (s.successorStart bank c n)
          else (s.onChunk bank c n fun k => { k with held := some i.row, startAt := none }).rackStep bank c n
      | 1 => if ch.hallDone || ch.heldHall.isSome then lateRow s
          else if past && ch.rackRow.isSome then lateRow (s.hallSuccessorStart bank c n)
          else (s.onChunk bank c n fun k => { k with heldHall := some i.row, startAt := none }).hallStep bank c n
      | p => s.resultStep bank c n p i.row

/-- The FMT of a chunk's header (R169). -/
def Ctx.fmtCode (x : Ctx) (phase : Nat) (f : Fmt) : Nat :=
  if phase < 2 || f.isRun then (if f = .x48 then 0x1D else 0x1C) else Tb.rfmt x.blk

/-- A chunk goes out on its buffer's grant (R190, R194): past the fabric, to the other bank of the instance with the checks of any chunk, or
nowhere. -/
def Part.sendChunk (s : Part) (bank c : Nat) (o : OutRow) : Part :=
  match s.ctxOf bank c with
  | none => s
  | some x =>
    let s := s.release o.rel
    match o.dst with
    | none =>
      (s.deliver bank c o.chunk ⟨o.boundExt, o.startTaken, o.hops, o.fmt, o.units, none, s.now⟩).twinDone bank c o.chunk
    | some dst =>
      let b := x.blk
      let h := Ch.mk (Tb.group b) o.chunk o.phase o.boundExt o.startTaken (x.fmtCode o.phase o.fmt) o.hops (Tb.seq b) o.units.length
      let src := s.bankId bank
      let fwd (s : Part) : Part :=
        let s := if bank = 0 then s.mirror (.chunkForwarded (Fin.ofNat 64 c) o.chunk o.phase) else s
        if 2 ≤ o.phase then (s.twinDone bank c o.chunk).resultFree bank c o.chunk else s
      let om (g : Nat) : OutMsg :=
        { ftype := .tether, dst := dst, lg := g, vl := 2, xfer := 0, expectsAck := false, acceptedAt := none,
          buf := if o.owned then some o.need else none, keepBuf := none, hdr := 0, keep := [], clips := 0, misfit := false,
          verdict := .noVerdict, chunk := some (bank, c, o.chunk) }
      if s.answers dst then
        let s := (if o.owned then s.release (some o.need) else s)
        let m := s.takeMsgid src
        fwd (m.2.onGh fun y =>
          { y with
            outMsgs := tabInsert y.outMsgs (s.outKey src m.1) { om 0 with buf := none, acceptedAt := some s.now }
            loops := y.loops ++ [⟨0, src, dst, m.1, h, unitsBytes o.units⟩] })
      else match s.routeChunk dst (Tb.lgMask b) o.chunk with
        | none => (if o.owned then s.release (some o.need) else s).stallOf (bank, c, o.chunk) 6
        | some g =>
          let m := s.takeMsgid src
          let s := m.2.onGh fun y => { y with outMsgs := tabInsert y.outMsgs (s.outKey src m.1) (om g) }
          fwd (s.enqueue g (mkFlits .tether 2 dst src (s.roleOf dst) m.1 (toBytes 16 h.toNat ++ unitsBytes o.units)))

/-- Rows and results whose buffers are granted go in and out of one context. -/
def Part.runCtx (s : Part) (bank c : Nat) : Part :=
  let s := s.feedResults bank c
  match s.ctxOf bank c with
  | none => s
  | some x =>
    let ins := x.ins.filter fun i => s.granted i.need
    let outs := x.outs.filter fun o => s.granted o.need
    let s := if ins.isEmpty && outs.isEmpty then s else s.worked (wsDom (Tb.hopWs x.blk))
    let s := s.onCtx bank c fun y =>
      { y with ins := y.ins.filter (fun i => !(ins.contains i)), outs := y.outs.filter fun o => !(outs.contains o) }
    (s.each ins fun s i => s.rowIn bank c i).each outs fun s o => s.sendChunk bank c o

/-- All contexts after a grant. -/
def Part.runCtxs (s : Part) : Part :=
  (s.each s.ctxs fun s k => s.runCtx 0 k.1).each s.twinCtxs fun s k => s.runCtx 1 k.1

/-! ### Deposits (R172) -/

/-- One unit of a deposit in the running format (R172 step 1): C9 has entered already; others enter at u0 through their values, the
retention copy standing in for a misfit (R135). -/
def Ctx.enter (x : Ctx) (d : Deposit) (n i : Nat) (u : LUnit) : RsUnit :=
  if d.fmt.isRun then RsUnit.ofUnit d.fmt u
  else
    let v := if d.misfit then d.keep.getD i u else u
    let f := if d.misfit then Fmt.bf16 else d.fmt
    let cfg : RunCfg := { x48 := x.x48, key := x.se.key, h := Tb.rank x.blk, i0 := x.i0 n }
    let e := enterRun cfg x.exp0 (decodeUnit f 128 v)
    { led := { v.led with scale := unitScale e.1, zp := 0#8, misfit := false, wide := false, exact := x.x48, poison := v.led.poison || e.2.2 },
      ue := e.1, els := e.2.1 }

/-- A deposit of unit n joins its partial sum (R172). -/
def UnitDep.add (p : Option UnitDep) (w : Nat) (epoch : W16) (u : RsUnit) : UnitDep :=
  let first := match p with | some y => y.first | none => u.led
  let bad := decide (u.led.epoch ≠ epoch) || decide (u.led.rotated ≠ first.rotated) || decide (u.led.smoothed ≠ first.smoothed)
  let u := { u with led := { u.led with poison := u.led.poison || bad } }
  match p with
  | none => { count := 1, first := first, sums := [(w, u)] }
  | some y =>
    { count := y.count + 1, first := first,
      sums := tabInsert y.sums w (match tabFind y.sums w with | some a => addExact a u | none => u) }

/-- The die chain (R172 step 3) and the contribution's record: it bears the context's format, also where a C9 deposit came in X48 to a T16
context of a rank below 4,096, for which the rules name no check (DESIGN CHOICE, log entry 50). -/
def UnitDep.total (p : UnitDep) (x : Ctx) : RsUnit :=
  match p.sums.map Prod.snd with
  | [] => x.emptyUnit
  | u :: us =>
    let t := us.foldl addExact u
    { t with led := { t.led with count := 1#16, epoch := x.se.epoch, exact := x.x48, scale := unitScale t.ue, zp := 0#8 } }

/-- The contribution of a chunk is complete when every unit has had DEP_EXP deposits (R172 step 2); a chunk beyond NUNITS has none. -/
def Ctx.complete (x : Ctx) (n : Nat) : Option (List RsUnit) :=
  let ch := x.chunk n
  let us := (List.range (Tb.unitsOf x.blk n)).map fun i => tabFind ch.deps (n * Tb.uc x.blk + i)
  if !us.isEmpty && us.all (fun p => match p with | some y => decide (Tb.depExp x.blk ≤ y.count) | none => false) then
    some (us.filterMap fun p => p.map fun y => y.total x)
  else none

/-- A contribution has become complete (R172, R184, R259). -/
def Part.contribute (s : Part) (bank c n : Nat) (us : List RsUnit) : Part :=
  let t := s.now
  ((s.onChunk bank c n fun k => { k with contrib := some us, contribAt := some t }).openStall bank c n).rackStep bank c n

/-- One unit of a deposit at Waystation w. -/
def Part.depositUnit (s : Part) (w c : Nat) (d : Deposit) (i : Nat) (u : LUnit) : Part :=
  match s.ctxOf 0 c with
  | none => s
  | some x =>
    let n := (d.rowblk * 128 + i) * d.tiles + d.tile
    let k := n / Tb.uc x.blk
    let ch := x.chunk k
    let have' := match tabFind ch.deps n with | some y => y.count | none => 0
    let late (s : Part) : Part := s.tetherLate w x k (Tb.seq x.blk)
    if Tb.nunits x.blk ≤ n then late s
    else if x.role ≠ .member || ch.absent then
      if ch.late then s
      else
        let s := late ((s.onChunk 0 c k fun z => { z with late := true }).ctxMark 0 c true 5)
        if x.role = .member then s.dropped 0 x 2 else s
    else if Tb.depExp x.blk ≤ have' then late s
    else
      let e := x.enter d n i u
      s.onChunk 0 c k fun z => { z with deps := tabInsert z.deps n (UnitDep.add (tabFind z.deps n) w x.se.epoch e) }

/-- Chunks that a deposit touches. -/
def Ctx.touched (x : Ctx) (d : Deposit) : List Nat :=
  ((List.range d.units.length).map fun i => ((d.rowblk * 128 + i) * d.tiles + d.tile) / Tb.uc x.blk).eraseDups

/-- Something of the deposit is added to chunk k (R172): a unit within NUNITS that still awaits deposits, of a chunk the member has part in. -/
def Ctx.adds (x : Ctx) (d : Deposit) (k : Nat) : Bool :=
  x.role = .member && !(x.chunk k).absent && (List.range d.units.length).any fun i =>
    let n := (d.rowblk * 128 + i) * d.tiles + d.tile
    decide (n / Tb.uc x.blk = k) && decide (n < Tb.nunits x.blk)
      && decide ((match tabFind (x.chunk k).deps n with | some y => y.count | none => 0) < Tb.depExp x.blk)

/-- Chunks for which the deposit needs an accumulator (R190): with DEP_EXP > 1, where it adds something. -/
def Ctx.accsOf (x : Ctx) (d : Deposit) : List Nat := if Tb.depExp x.blk ≤ 1 then [] else (x.touched d).filter (x.adds d)
/-- Those whose accumulator at Waystation w has not been asked for. -/
def Ctx.accsMissing (x : Ctx) (w : Nat) (d : Deposit) : List Nat := (x.accsOf d).filter fun k => (tabFind (x.chunk k).accs w).isNone

/-- Credits of an accumulator (R190). The table gives U_c × 520 bytes for the s32 accumulator and nothing for the s48 accumulator of an X48
context, which is charged U_c × 776 bytes, 6 bytes an element and the record (DESIGN CHOICE, log entry 50). -/
def accCredits (x48 : Bool) (uc : Nat) : Nat := (uc * (if x48 then 776 else 520) + 1023) / 1024

/-- The copy of the oldest deposit that enters, the retention copy after a misfit (R135), with what an error of its read leaves of it (R284). -/
def Part.depositErr (s : Part) (w : Nat) (err : ChunkErr) : Part :=
  match (s.ws w).deposits with
  | [] => s
  | d :: rest =>
    s.onWs w fun y =>
      { y with deposits := (if d.misfit then { d with keep := struckUnits err d.keep } else { d with units := struckUnits err d.units }) :: rest }

/-- The oldest deposit of a Waystation enters its context, or waits for its accumulator's credits (R31, R172, R190). What it enters from is kept
while it serves as the accumulator, the other copy goes back (R135 rule 5), and both where nothing of it was added. -/
def Part.deposit (s : Part) (w : Nat) : Part :=
  match (s.ws w).deposits with
  | [] => s
  | d :: rest =>
    match s.ctxOf 0 d.ctx with
    | none => (((s.worked (wsDom w)).release d.buf).release d.keepBuf).onWs w fun y => { y with deposits := rest }
    | some x =>
      let s := s.each (x.accsMissing w d) fun s k =>
        let r := s.larderReq (64 + w) (64 + w) (accCredits x.x48 (Tb.uc x.blk))
        r.2.onChunk 0 d.ctx k fun z => { z with accs := tabInsert z.accs w r.1 }
      let waits := match s.ctxOf 0 d.ctx with
        | some y => (y.accsOf d).any fun k => match tabFind (y.chunk k).accs w with | some b => !s.granted b | none => false
        | none => false
      if waits then s
      else
        let s := (s.worked (wsDom w)).onWs w fun y => { y with deposits := rest }
        let before := s
        let s := s.each d.units.zipIdx fun s u => s.depositUnit w d.ctx d u.2 u.1
        let used := (x.touched d).filter fun k => match before.ctxOf 0 d.ctx, s.ctxOf 0 d.ctx with
          | some y, some z => decide ((y.chunk k).deps ≠ (z.chunk k).deps)
          | _, _ => false
        let entered := if d.misfit then d.keepBuf else d.buf
        let s := s.release (if d.misfit then d.buf else d.keepBuf)
        let s := if Tb.depExp x.blk = 1 && !used.isEmpty then
            s.each used fun s k => s.onChunk 0 d.ctx k fun z => { z with depBufs := entered.toList ++ z.depBufs }
          else s.release entered
        s.each (x.touched d) fun s k =>
          match s.ctxOf 0 d.ctx with
          | some y =>
            if (y.chunk k).contrib.isNone && y.role = .member && !(y.chunk k).absent then
              match y.complete k with | some us => s.contribute 0 d.ctx k us | none => s
            else s
          | none => s

/-! ### Part rows (R172 step 4, R181) -/

/-- The part rows of chunk n are read from PART_OFF (R249), in whole 64 B units (R50). -/
def Part.askParts (s : Part) (c n : Nat) : Part :=
  match s.ctxOf 0 c with
  | none => s
  | some x =>
    if Tb.chunks x.blk ≤ n then s
    else
      let w := wireUnit (runFmt (decide (Tb.fmt x.blk = 0x1D)))
      let off := Tb.partOff x.blk + n * Tb.uc x.blk * w
      let len := Tb.unitsOf x.blk n * w
      let lo := off / 64 * 64
      s.nocRead (Tb.hopWs x.blk) lo ((off + len + 63) / 64 * 64 - lo) (.part 0 c n (off - lo))

/-- The part rows of a chunk have come: they are the contribution, without conversion, under the context's EPOCH; a row of another EPOCH is
poisoned (R78, R172, DEDUCED, log entry 50). Rows that come after the member's hop are late (R185). -/
def Part.partsIn (s : Part) (c n skip : Nat) (data : List Byte) (bads : List (Nat × Nat)) : Part :=
  match s.ctxOf 0 c with
  | none => s
  | some x =>
    let x48 := decide (Tb.fmt x.blk = 0x1D)
    let us := readUnits (runFmt x48).width 128 (Tb.unitsOf x.blk n) (data.drop skip)
    let w := wireUnit (runFmt x48)
    let us := us.zipIdx.map fun (u, i) =>
      let r := RsUnit.ofUnit (runFmt x48) u
      let err := bads.any fun b => decide (b.1 < skip + (i + 1) * w) && decide (skip + i * w < b.2)
      let bad := u.led.malformed (runFmt x48) (some x.se.cls.toNat)
      ({ r with led := { r.led with poison := r.led.poison || err || bad || decide (r.led.epoch ≠ x.se.epoch), epoch := x.se.epoch } }, bad)
    let s := s.ledgerErr (us.filter Prod.snd).length
    let s := if (x.chunk n).absent then (s.chunkLate 0 c n).dropped 0 x 2 else s.contribute 0 c n (us.map Prod.fst)
    s.askParts c (n + 1)

/-! ### Ends of contexts (R189, R251) -/

/-- Answers and data still on their way to a context, or to one chunk of it, reach nothing any more: the requests go on without a use. -/
def Part.forget (s : Part) (gone : NocUse → Bool) : Part :=
  let f (r : NocReq) : NocReq := if gone r.use.inner then { r with use := r.use.drop } else r
  { s with nocs := s.nocs.map fun p =>
      (p.1, { p.2 with waiting := p.2.waiting.map f, openReqs := p.2.openReqs.map fun o => (o.1, f o.2.1, o.2.2) }) }

/-- The delivery writes and part-row reads of a context. -/
def NocUse.ofCtx (bank c : Nat) (u : NocUse) : Bool :=
  match u with
  | .deliver b k _ | .part b k _ _ => decide (b = bank) && decide (k = c)
  | _ => false

/-- Deposits still waiting for a context go with it (R251), and their buffers. -/
def Part.dropDeposits (s : Part) (c : Nat) : Part :=
  s.each (List.range 8) fun s w =>
    let s := s.each ((s.ws w).deposits.filter fun d => decide (d.ctx = c)) fun s d => (s.release d.buf).release d.keepBuf
    if (s.ws w).deposits.any fun d => decide (d.ctx = c) then
      s.onWs w fun y => { y with deposits := y.deposits.filter fun d => decide (d.ctx ≠ c) }
    else s

/-- Drains in flight to a context that ends: what they would hand over has no context any more (R155, R251). -/
def Part.drainsGone (s : Part) (c : Nat) : Part :=
  let f (j : DrainJob) : DrainJob := if Desc.dest j.desc = 2 && decide (Desc.tag j.desc % 64 = c) then { j with ctxGone := true } else j
  { s with dps := s.dps.map fun p => (p.1, p.2.mapJobs f) }

/-- Every buffer of a context goes back. -/
def Part.freeCtx (s : Part) (bank c : Nat) : Part :=
  match s.ctxOf bank c with
  | none => s
  | some x =>
    let s := s.each ((x.chunks.map fun k => k.2.accs.map Prod.snd ++ k.2.depBufs).flatten.eraseDups) fun s b => s.release (some b)
    let s := s.each x.ins fun s i => s.release (some i.need)
    let s := s.each x.outs fun s o => (if o.owned then s.release (some o.need) else s).release o.rel
    let s := s.each x.chunks fun s k => s.each (k.2.held.toList ++ k.2.heldHall.toList ++ k.2.rackRow.toList ++ k.2.finished.toList) (fun s r =>
      s.release r.buf) |>.release k.2.delBuf
    let mine (o : Nat × OutMsg) : Bool := decide (o.2.chunk.map (fun k => (k.1, k.2.1)) = some (bank, c))
    let s := s.onGh fun g =>
      { g with
        outMsgs := (g.outMsgs.filter fun o => !(mine o && o.2.acceptedAt.isSome)).map fun o => if mine o then (o.1, { o.2 with chunk := none }) else o }
    let s := (if bank = 0 then (s.dropDeposits c).drainsGone c else s).forget (NocUse.ofCtx bank c)
    (s.dropCtx bank c).mirror (.contextGone (Fin.ofNat 64 c))

/-- A context ends: the event of its owner, its number free (R189, R250, R251). -/
def Part.ctxEnd (s : Part) (bank c code : Nat) : Part :=
  match s.ctxOf bank c with
  | none => s
  | some x =>
    let s := (s.tetherRegs' bank c).freeCtx bank c
    match x.owner with
    | some o => (s.signalIf o.2.2 o.1 o.2.1.toNat (evTether code c 0 x.status.toNat)).retestFences
    | none => s

end Sys2Proof.Machine
end

