-- ==== Sys2Proof/Machine/CourierOps.lean ====
section
/-! DEFINITION. The Courier (R219 to R223, R238, R283): the tree, its flits, combining and results. -/

namespace Sys2Proof.Machine

/-! ### The tree (R220, R283) -/

/-- Ranks of a block at a level. -/
def crSize : Nat → Nat
  | 0 => 1 | 1 => 4 | 2 => 64 | 3 => 2048
  | _ => 65536
/-- The level at which rank `c` is a child of leader `r`: the smallest whose block holds both. -/
def crLevel (r c : Nat) : Nat := ([1, 2, 3, 4].find? fun l => decide (r / crSize l = c / crSize l)).getD 4
/-- The lowest live rank of the block of rank r at a level (R220, R283). -/
def GroupImage.crLeader (g : GroupImage) (l r : Nat) : Option Nat :=
  ((List.range (crSize l)).map fun i => r / crSize l * crSize l + i).find? fun x => decide (x < g.members.length) && !g.deadRank x
/-- The depth of a group of M members. -/
def crDepth (m : Nat) : Nat := ([1, 2, 3, 4].find? fun l => decide (m ≤ crSize l)).getD 4
/-- How many levels rank r leads. -/
def GroupImage.crLeads (g : GroupImage) (r : Nat) : Nat :=
  (([1, 2, 3, 4].takeWhile fun l => decide (l ≤ crDepth g.members.length) && g.crLeader l r == some r)).length
/-- The parent of rank r; none for the root. -/
def GroupImage.crParent (g : GroupImage) (r : Nat) : Option FabId :=
  if g.crLeads r < crDepth g.members.length then (g.crLeader (g.crLeads r + 1) r).map fun x => (g.member x).ident else none
/-- The children of rank r in ascending rank order. -/
def GroupImage.crChildren (g : GroupImage) (r : Nat) : List (Nat × FabId) :=
  let at' (l : Nat) : List Nat :=
    let b := r / crSize l * crSize l
    ((List.range (crSize l / crSize (l - 1))).filterMap fun i => g.crLeader (l - 1) (b + i * crSize (l - 1))).filter fun x =>
      decide (x ≠ r) && decide (x < g.members.length) && decide (x / crSize (l - 1) ≠ r / crSize (l - 1))
  (((List.range (g.crLeads r)).map fun i => at' (i + 1)).flatten).map fun x => (x, (g.member x).ident)
/-- Levels a bound group leads. -/
def CrGroup.leads (c : CrGroup) : Nat := (c.children.map fun k => crLevel c.rank.toNat k.1).foldl max 0

/-! ### Flits (R26, R56, R221) -/

/-- The lane group of the Courier's virtual lane: 0, or 1 while no lane of 0 is up (R56). COURIER flits that already wait on lane group 0 as its
last lane falls stay there and later ones go to lane group 1: the rules do not say (DESIGN CHOICE, log entry 31). -/
def Part.crLane (s : Part) : Nat := if (s.lg 0).lanes = 0#4 then 1 else 0

/-- The payload of R221. -/
def crPayload (g : Nat) (c : CrGroup) (dir : Nat) (p : CrPart) : List Byte :=
  toBytes 16 (g + c.op.toNat * 2 ^ 4 + c.len8.toNat * 2 ^ 6 + dir * 2 ^ 9 + b2n p.absent * 2 ^ 10 + b2n p.ovf * 2 ^ 11
      + c.cepoch.toNat * 2 ^ 16 + c.cseq.toNat * 2 ^ 32 + p.count * 2 ^ 64)
    ++ (p.data.map fun (w : W32) => toBytes 4 w.toNat).flatten

/-- One COURIER flit to a neighbour. -/
def Part.sendCrAs (s : Part) (c : CrGroup) (dst : FabId) (g dir : Nat) (p : CrPart) : Part :=
  let m := s.takeMsgid s.ownId
  m.2.enqueue s.crLane (mkFlits .courier 0 dst s.ownId 0 m.1 (crPayload g c dir p))
def Part.sendCr (s : Part) (dst : FabId) (g dir : Nat) (p : CrPart) : Part := s.sendCrAs (s.crg g) dst g dir p

/-! ### Values (R222) -/

def pad16 (d : List W32) : List W32 := d.take 16 ++ List.replicate (16 - d.length) 0
/-- One binary32 addition, to nearest with ties to even. -/
def addFp32 (a b : W32) : W32 := BitVec.ofNat 32 (encodeN fp32Fmt (Val.sum [ofFp32 a, ofFp32 b]))
/-- The INT64 values of the data words. -/
def int64s : Nat → List W32 → List W64
  | 0, _ => []
  | n + 1, d => BitVec.ofNat 64 ((d.getD 0 0).toNat + (d.getD 1 0).toNat * 2 ^ 32) :: int64s n (d.drop 2)
def ofInt64s (l : List W64) : List W32 := (l.map fun (w : W64) => [BitVec.ofNat 32 (fld w 0 32), BitVec.ofNat 32 (fld w 32 32)]).flatten
def addOvf (a b : W64) : Bool :=
  let t := a.toInt + b.toInt
  decide (t < -(2 ^ 63)) || decide (2 ^ 63 ≤ t)

/-- One input joins the sum. -/
def CrPart.add (op : BitVec 2) (a b : CrPart) : CrPart :=
  if op = 0#2 then
    { a with data := (pad16 a.data).zipWith addFp32 (pad16 b.data), count := a.count + b.count, absent := a.absent || b.absent, ovf := a.ovf || b.ovf }
  else if op = 1#2 then
    let x := int64s 8 (pad16 a.data)
    let y := int64s 8 (pad16 b.data)
    { a with
      data := ofInt64s (x.zipWith (· + ·) y)
      count := a.count + b.count
      absent := a.absent || b.absent
      ovf := a.ovf || b.ovf || (x.zipWith addOvf y).any id }
  else { a with data := List.replicate 16 0, count := a.count + b.count, absent := a.absent || b.absent, ovf := a.ovf || b.ovf }

/-! ### Results (R223, R238) -/

/-- RES fields as the event status bears them (R240). -/
def crRes (p : CrPart) : Nat := p.count % 2 ^ 17 + b2n p.absent * 2 ^ 17 + b2n p.ovf * 2 ^ 18

/-- The group's combining state as it stands between operations. -/
def CrGroup.idle (c : CrGroup) : CrGroup :=
  { c with level := 0, acc := none, parts := [], sinces := [none, none, none, none], mine := none, prog := none }

/-- The result reaches the member (R223): data, RES, DONE, BUSY, the interrupt; a program's result bytes and event (R238). -/
def Part.crDone (s : Part) (g : Nat) (p : CrPart) : Part :=
  let c := s.crg g
  let t := s.now
  let c' : CrGroup :=
    { c.idle with
      doneAt := some t
      data := pad16 p.data
      count := BitVec.ofNat 17 p.count
      absent := p.absent
      ovf := p.ovf
      doneF := true
      busy := false
      cseq := BitVec.ofNat 32 ((c.cseq.toNat + 1) % 2 ^ 24)
      fresh := false }
  let s := (s.onCrg g fun _ => c').irqCr g
  match c.prog with
  | none => s
  | some (q, ev, en, gb) =>
    if c.op = 2#2 then s.signalIf en q ev.toNat (evCourier 0 g (crRes p))
    else
      let id := s.nextId
      Part.nocWrite { s with nextId := id + 1 } (portOf q) gb
        (((pad16 p.data).take (2 * (c.len8.toNat + 1))).map fun (w : W32) => toBytes 4 w.toNat).flatten
        (.courierOut g q ev.toNat en (crRes p) id)

/-- Refusal of an operation in hand or of an issue (R223, R283). -/
def Part.crRefuse (s : Part) (g : Nat) (prog : Option (Nat × Byte × Bool × Nat)) : Part :=
  let s := (s.onCrg g fun c => { c with refused := true }).irqCr g
  match prog with
  | some (q, ev, en, _) => s.signalIf en q ev.toNat (evCourier 1 g 0)
  | none => s

/-! ### Combining (R222) -/

/-- The window of level l opens with its first input. -/
def CrGroup.openLevel (c : CrGroup) (l now : Nat) : CrGroup :=
  { c with sinces := c.sinces.set (l - 1) (match c.sinces.getD (l - 1) none with | some t => some t | none => some now) }

/-- Up flits of the children of a level, in ascending rank order. -/
def CrGroup.levelParts (c : CrGroup) (l : Nat) : List CrPart :=
  (c.children.filter fun k => decide (crLevel c.rank.toNat k.1 = l)).filterMap fun k => c.parts.find? fun p => decide (p.rank = k.1)
/-- Every child of the level has sent. -/
def CrGroup.levelFull (c : CrGroup) (l : Nat) : Bool :=
  (c.children.filter fun k => decide (crLevel c.rank.toNat k.1 = l)).all fun k => c.parts.any fun p => decide (p.rank = k.1)

/-- Combine level l (R222 steps 1 to 3); `own` is missing where the level below has no result. -/
def CrGroup.combine (c : CrGroup) (l now : Nat) : CrGroup :=
  let own := if c.level + 1 = l then c.acc else none
  let full := c.levelFull l && own.isSome
  let z : CrPart := { rank := c.rank.toNat, count := 0, absent := false, ovf := false, data := List.replicate 16 0 }
  let r := match own.toList ++ c.levelParts l with
    | [] => z
    | p :: ps => ps.foldl (CrPart.add c.op) p
  let r := { r with rank := c.rank.toNat, absent := r.absent || !full }
  { c with level := l, acc := some r, parts := c.parts.filter fun p => decide (l < crLevel c.rank.toNat p.rank) }.openLevel (l + 1) now

/-- Levels combine while all their inputs are there. -/
def CrGroup.advance (now : Nat) : Nat → CrGroup → CrGroup
  | 0, c => c
  | n + 1, c =>
    if c.level < c.leads && c.acc.isSome && c.levelFull (c.level + 1) then CrGroup.advance now n (c.combine (c.level + 1) now) else c

/-- The own value of an operation that is not in combination here begins its own (R222). -/
def CrGroup.begin (c : CrGroup) (now : Nat) : CrGroup :=
  match c.mine with
  | some (n, op, len8, p) => { c with op := op, len8 := len8, cseq := n, acc := some p, mine := none }.openLevel 1 now
  | none => c

/-- A leader's last level is combined: up to the parent, or round as a down flit (R222 step 4). At a root whose own issue is of another
operation the result is the children's, and the own operation begins (R223). -/
def Part.crUp (s : Part) (g : Nat) : Part :=
  let c := s.crg g
  match c.acc with
  | none => s
  | some r =>
    if c.level < c.leads then s
    else match c.parent with
      | some p => (s.onCrg g fun c => { c with acc := none }).sendCr p g 0 r
      | none =>
        let s := s.each c.children fun s k => s.sendCr k.2 g 1 r
        let t := s.now
        if c.mine.isSome then s.onCrg g fun c => ({ c.idle with mine := c.mine, prog := c.prog } : CrGroup).begin t else s.crDone g r

/-- Take the combining as far as it goes. -/
def Part.crRun (s : Part) (g : Nat) : Part :=
  let t := s.now
  (s.onCrg g fun c => CrGroup.advance t 5 c).crUp g

/-- The issue falls in the AON cycle, of 5 ns, in which the group's result was written (R223, R313; DEDUCED, log entry 51). -/
def CrGroup.sameCycle (c : CrGroup) (now : Nat) : Bool := match c.doneAt with | some t => decide (t / 5 = now / 5) | none => false

/-- The window of level l has ended. -/
def Part.crEnded (s : Part) (c : CrGroup) (l : Nat) : Bool :=
  match c.sinces.getD (l - 1) none with
  | some t => s.ended t s.courier.budget.toNat
  | none => false

/-- An issue (R222, R223): refused while busy, unbound or disabled, or in the cycle of the result's writing; the reserved OP is refused too. An
own value joins the child flits of its own CSEQ alone, and only inside the window of level 1; one of another CSEQ waits for the
combination in hand to end. A parked instance issues none (R308). -/
def Part.crIssue (s : Part) (g : Nat) (op : BitVec 2) (len8 : BitVec 3) (cseq : Nat) (prog : Option (Nat × Byte × Bool × Nat)) : Part :=
  let c := s.crg g
  if s.mb.parked then s
  else if c.busy || !c.bound || !s.courier.en || op = 3#2 || c.sameCycle s.now then s.crRefuse g prog
  else
    let n := 2 * (len8.toNat + 1)
    let d := if op = 2#2 then List.replicate 16 0 else pad16 (c.data.take n)
    let t := s.now
    let own : CrPart := { rank := c.rank.toNat, count := 1, absent := false, ovf := false, data := d }
    let n : W32 := BitVec.ofNat 32 (cseq % 2 ^ 24)
    let inHand := !c.parts.isEmpty || c.acc.isSome || decide (0 < c.level)
    let late := decide (0 < c.level) || s.crEnded c 1
    let issued (c : CrGroup) : CrGroup := { c with busy := true, doneF := false, refused := false, fresh := false, prog := prog }
    if inHand && decide (n ≠ c.cseq) then s.onCrg g fun c => { issued c with mine := some (n, op, len8, own) }
    else
      let s := s.onCrg g fun c =>
        { issued c with op := op, len8 := len8, cseq := n, acc := if late then c.acc else some own }.openLevel 1 t
      s.crRun g

/-! ### Binding (R219, R283) -/

/-- K0 binds a Courier group to a group's tree: rank, size, epoch, neighbours, and 2 credits of the Courier's partition. The epoch that the
members agree on is not given: it is Config.bindEpoch's of the group (log entry 51). -/
def Part.crBind (s : Part) (g : Nat) (img : GroupImage) (rank : Nat) : Part :=
  let r := s.larderReq 73 73 2
  r.2.onCrg g fun c =>
    { c.idle with
      rank := BitVec.ofNat 16 rank
      msize := BitVec.ofNat 16 (img.members.length - 1)
      cepoch := Config.bindEpoch img.group
      bound := true
      fresh := true
      buf := some r.1
      parent := img.crParent rank
      children := img.crChildren rank
      group := some img.group }

/-- The Courier groups bound to a group. -/
def Part.crOf (s : Part) (group : W16) : List Nat := (List.range 16).filter fun g => (s.crg g).group = some group

/-- K0 binds a group to the lowest free Courier group, where it has none and one is free (R219). -/
def Part.crTake (s : Part) (img : GroupImage) (rank : Nat) : Part :=
  if (s.crOf img.group).isEmpty then
    match (List.range 16).find? fun g => !(s.crg g).bound && (s.crg g).group.isNone with
    | some g => s.crBind g img rank
    | none => s
  else s

/-- A new tree with CEPOCH increased by 1; an operation in progress is refused (R274, R283). -/
def Part.crRebind (s : Part) (img : GroupImage) (rank : Nat) : Part :=
  s.each (s.crOf img.group) fun s g =>
    let c := s.crg g
    let s := s.onCrg g fun c =>
      { c.idle with
        rank := BitVec.ofNat 16 rank
        parent := img.crParent rank
        children := img.crChildren rank
        cepoch := c.cepoch + 1
        busy := false }
    if c.busy then s.crRefuse g c.prog else s

/-- The binding ends with its group. -/
def Part.crUnbind (s : Part) (group : W16) : Part :=
  s.each (s.crOf group) fun s g =>
    (s.release (s.crg g).buf).onCrg g fun c =>
      { CrGroup.reset with data := c.data, count := c.count, absent := c.absent, ovf := c.ovf, doneF := c.doneF, refused := c.refused, cepoch := c.cepoch }

end Sys2Proof.Machine
end

