-- ==== Sys2Proof/Machine/Control.lean ====
section
/-! DEFINITION. K0 as member and manager (R34 to R37, R189, R258 to R263, R270 to R283): orders and answers, the journal, replays,
skips, spares, the group floor; opening a Tether context (R167, R249, R250, R308). -/

namespace Sys2Proof.Machine

/-! ### Groups -/

def Part.group (s : Part) (n : Nat) : Option Group := tabFind s.groups n
def Part.onGroup (s : Part) (n : Nat) (f : Group → Group) : Part :=
  match tabFind s.groups n with
  | some g => { s with groups := tabInsert s.groups n (f g) }
  | none => s

/-- Ranks alive in a table. -/
def GroupImage.live (g : GroupImage) : List Nat := (List.range g.members.length).filter fun r => !g.deadRank r
/-- The table with one member changed. -/
def GroupImage.setMember (g : GroupImage) (r : Nat) (f : Member → Member) : GroupImage :=
  { g with members := g.members.zipIdx.map fun (m, i) => if i = r then f m else m }
/-- W summed over the members (R164). -/
def GroupImage.weight (g : GroupImage) : Nat := sumN (g.members.map fun m => m.w.toNat)

/-- A group as K0 takes it up. -/
def Group.new (img : GroupImage) (slot : Nat) (manager : Bool) (rank : Option Nat) (courierOnly : Bool) (mgr : FabId) : Group :=
  { img := img, slot := slot, manager := manager, rank := rank, courierOnly := courierOnly, mgrId := mgr, jseqLast := 0, ofTwin := false,
    frozen := false, nextJseq := 1, journal := [], unaccepted := [], unsent := [], dropped := [], delivered := [], completeSeq := none, replays := [],
    drawing := [], redraws := [], recovery := [], reportAt := none, lastBlk := none, closedSeq := none, seqSkips := [] }

/-- The lowest free slot (R294, R326). -/
def Part.freeSlot (s : Part) : Option Nat :=
  (List.range 64).find? fun k => s.groups.all (fun g => decide (g.2.slot ≠ k)) && s.pwr.joins.all (fun j => decide (j.2.2.1 ≠ k))

/-- Limits of R36. -/
def Part.membershipsFull (s : Part) : Bool := decide (64 ≤ (s.groups.filter fun g => g.2.rank.isSome && !g.2.ofTwin).length)
def Part.managedFull (s : Part) : Bool := decide (8 ≤ (s.groups.filter fun g => g.2.manager && !g.2.frozen).length)

/-- The rank of an identity in a table. -/
def GroupImage.rankOf (g : GroupImage) (i : FabId) : Option Nat :=
  (List.range g.members.length).find? fun r => decide ((g.member r).ident = i)

/-- The table of a group goes to the twin as it changes (R18, R34, R270): the manager's, with the members dropped in the step, and the
member's. -/
def Part.mirrorManaged (s : Part) (n : Nat) : Part :=
  match s.group n with
  | some g => if g.manager then s.mirror (.managed g.img g.dropped) else s
  | none => s
def Part.mirrorGroup (s : Part) (n : Nat) : Part :=
  match (s.mirrorManaged n).group n with
  | some g => if g.rank.isSome && !g.ofTwin then (s.mirrorManaged n).mirror (.membership g.img g.mgrId) else s.mirrorManaged n
  | none => s

/-- K0 takes up a group: table, slot, Courier binding where a Courier group is free (R219, R270, R294). -/
def Part.takeGroup (s : Part) (img : GroupImage) (slot : Nat) (manager courierOnly : Bool) (mgr : FabId) : Part :=
  let rank := img.rankOf s.ownId
  let s : Part := { s with groups := tabInsert s.groups img.group.toNat (.new img slot manager rank courierOnly mgr) }
  let s := if manager then s.mirror (.managed img []) else s
  let s := if rank.isSome then s.mirror (.membership img mgr) else s
  match rank with
  | some r => s.crTake img r
  | none => s

/-- The bytes of a group table in a CONTROL body (R270). PRESUMED layout: the fields of R270 in order, the identifiers of the spare
list last (log entry 14). -/
def tableBytes (g : GroupImage) : List Byte :=
  toBytes 2 g.group.toNat ++ toBytes 2 (g.members.length - 1) ++ toBytes 2 g.hMinus1.toNat ++ toBytes 2 g.floor.toNat
    ++ (g.members.map fun m => toBytes 8 (m.ident.toNat + m.w.toNat * 2 ^ 17 + m.rack.toNat * 2 ^ 33 + b2n m.dead * 2 ^ 45)).flatten
    ++ (g.spares.map fun i => toBytes 4 i.toNat).flatten

/-! ### Snapshot images (R276) -/

/-- The sections of an image: offset, bytes of an entry, entries. -/
def imageSections : List (Nat × Nat × Nat) :=
  [(0x100, 4096, 9), (0x9100, 128, 64), (0xB100, 128, 256), (0x13100, 16, 4096), (0x23100, 4096, 1), (0x24100, 2, 131072), (0x64100, 32, 4096),
   (0x84100, 80, 4096), (0xD4100, 256, 64)]

/-- The section of an entry and its number there; unacknowledged messages and memberships have no number of their own. -/
def MirrorItem.sect : MirrorItem → Option (Nat × Option Nat)
  | .sequencerState q _ => some (0, some q.val)
  | .context c _ => some (1, some c.val)
  | .chunkReceived c _ _ => some (1, some c.val)
  | .chunkForwarded c _ _ => some (1, some c.val)
  | .chunkFinished c _ => some (1, some c.val)
  | .transfer n _ _ => some (2, some n.toNat)
  | .unacked _ _ _ => some (3, none)
  | .creditCounters _ _ _ _ => some (4, some 0)
  | .fabricCredits _ _ => some (4, some 0)
  | .roleEntry i _ => some (5, some i.toNat)
  | .streamEntry n _ => some (6, some n.val)
  | .envelope n _ _ => some (7, some n.val)
  | .membership _ _ => some (8, none)
  | .lastJseq _ _ => some (8, none)
  | _ => none

/-- What tells entries without a number of their own apart: a message, a group. -/
def MirrorItem.key : MirrorItem → Nat
  | .unacked i _ _ => i.toNat
  | .membership g _ => g.group.toNat
  | .lastJseq g _ => g.toNat
  | _ => 0

/-- Offset and length of the entries of an image, with what lies there; entries without a number of their own stand in their order (log entry
52). -/
def imagePlaces (items : List MirrorItem) : List (Nat × Nat × MirrorItem) :=
  let keys (k : Nat) : List Nat := ((items.filter fun it => decide (it.sect = some (k, none))).map MirrorItem.key).eraseDups
  let us := keys 3
  let gs := keys 8
  items.filterMap fun it =>
    it.sect.map fun (k, n) =>
      let x := imageSections.getD k (0, 0, 0)
      (x.1 + x.2.1 * n.getD ((if k = 3 then us else gs).idxOf it.key), x.2.1, it)

/-- An entry's content as numbers, where R276 gives its bytes no layout. -/
def MirrorItem.nums : MirrorItem → List Nat
  | .context _ b => [b.toNat]
  | .chunkReceived _ n p => [0, n, p]
  | .chunkForwarded _ n p => [1, n, p]
  | .chunkFinished _ n => [2, n]
  | .transfer _ b d => [b.toNat, d]
  | .unacked i x d => [i.toNat, x.toNat, d.toNat]
  | .sequencerState _ x =>
    [x.st.toNat, b2n x.wstore, x.pc.toNat, x.len.toNat, x.src.toNat] ++ (x.regs.map fun r => [r.1, r.2.toNat]).flatten
      ++ (x.lcs.map fun r => [r.1, r.2.toNat]).flatten ++ x.stack.map (·.toNat)
      ++ (x.events.map fun e => [e.1, e.2.1.toNat, e.2.2.toNat]).flatten
  | .creditCounters f c o n => f ++ c ++ o ++ n
  | .fabricCredits g c => g.val :: c
  | .envelope _ r a => (r.map fun p => p.1.toNat + p.2.toNat * 2 ^ 16) ++ (a.map fun p => p.1.toNat + p.2.toNat * 2 ^ 16).toList
  | .membership g m => g.group.toNat :: m.toNat :: g.members.map fun x => x.ident.toNat
  | .lastJseq g j => [g.toNat, j.toNat]
  | _ => []

/-- The bytes of the entry at an offset: a role epoch as R276 gives it, a stream entry by its staging words (R345; PRESUMED, log entry 52), any
other free bytes of its content. -/
def entryBytes (items : List MirrorItem) (off len : Nat) : List Byte :=
  if 0x24100 ≤ off ∧ off < 0x64100 then
    toBytes 2 (((items.findSome? fun (it : MirrorItem) => match it with | .roleEntry _ e => some e | _ => none).getD 0).toNat)
  else if 0x64100 ≤ off ∧ off < 0x84100 then
    let e : StreamEntry := (items.findSome? fun (it : MirrorItem) => match it with | .streamEntry _ e => some e | _ => none).getD .reset
    ((List.range 6).map fun i => toBytes 4 (e.word false i).toNat).flatten ++ List.replicate 8 0
  else (List.range len).map (Config.imageByte off (items.map MirrorItem.nums).flatten)

/-- The pieces in which an image is sent (R277; their size is DESIGN CHOICE, log entry 52): whole entries of one section, up to 4,096 bytes; offset,
bytes of an entry, entries. -/
def imagePieces : List (Nat × Nat × Nat) :=
  (imageSections.map fun (b, len, n) =>
    let per := 4096 / len
    (List.range ((n + per - 1) / per)).map fun i => (b + len * per * i, len, min per (n - per * i))).flatten

/-- The bytes of consecutive entries, and what lies in them. -/
def piecePlaces (ps : List (Nat × Nat × MirrorItem)) (x : Nat × Nat × Nat) : List (Nat × Nat × MirrorItem) :=
  ps.filter fun p => decide (x.1 ≤ p.1) && decide (p.1 < x.1 + x.2.1 * x.2.2)
def pieceBytes (ps : List (Nat × Nat × MirrorItem)) (x : Nat × Nat × Nat) : List Byte :=
  let ps := piecePlaces ps x
  ((List.range x.2.2).map fun i =>
    entryBytes ((ps.filter fun p => decide (p.1 = x.1 + x.2.1 * i)).map fun p => p.2.2) (x.1 + x.2.1 * i) x.2.1).flatten

/-- The image after its header. -/
def Snapshot.body (x : Snapshot) : List Byte := let ps := imagePlaces x.items; (imagePieces.map (pieceBytes ps)).flatten

/-- The header's 256 bytes: its fields, the CRC-32C of the image after it among them, in places that R276 does not give. -/
def Snapshot.header (x : Snapshot) : List Byte :=
  (List.range 256).map (Config.imageByte 0 [x.magic.toNat, x.ident.toNat, x.step.toNat, b2n x.set, x.len, (crc32c x.body).toNat])

/-- The whole image (R276). -/
def Snapshot.bytes (x : Snapshot) : List Byte := x.header ++ x.body

/-- The role epochs and stream entries that lie whole in a piece of an image. -/
def imageEntries (off : Nat) (data : List Byte) : List MirrorItem :=
  (List.range data.length).filterMap fun i =>
    let a := off + i
    if 0x24100 ≤ a ∧ a < 0x64100 then
      (if a % 2 = 0 ∧ i + 2 ≤ data.length then
        some (.roleEntry (BitVec.ofNat 17 ((a - 0x24100) / 2)) (BitVec.ofNat 16 (ofBytes (slice data i 2)))) else none)
    else if 0x64100 ≤ a ∧ a < 0x84100 then
      (if (a - 0x64100) % 32 = 0 ∧ i + 32 ≤ data.length then
        some (.streamEntry (Fin.ofNat 4096 ((a - 0x64100) / 32))
          ((List.range 6).foldl (fun e k => e.setWord k (BitVec.ofNat 32 (ofBytes (slice data (i + 4 * k) 4)))) .reset)) else none)
    else none

/-- Envelopes whose entries lie whole in a piece of an image and that nothing is said of: they are empty. -/
def imageEmpties (off : Nat) (data : List Byte) (items : List MirrorItem) : List MirrorItem :=
  (List.range 4096).filterMap fun n =>
    let a := 0x84100 + 80 * n
    if off ≤ a ∧ a + 80 ≤ off + data.length ∧ items.all (fun it => decide (it.sect ≠ some (7, some n))) then some (.envelope (Fin.ofNat 4096 n) [] none) else none

/-- What a piece of an image says (R276, R277): role epochs and stream entries by its bytes, entries without a layout as the sender read them,
where they belong to the piece. -/
def imageItems (off : Nat) (data : List Byte) (items : List MirrorItem) : List MirrorItem :=
  imageEntries off data ++ imageEmpties off data items ++ items.filter fun it =>
    match it with
    | .roleEntry _ _ => false
    | .streamEntry _ _ => false
    | _ => match it.sect with
      | some (k, n) =>
        let x := imageSections.getD k (0, 0, 0)
        let a := x.1 + x.2.1 * n.getD 0
        let b := match n with | some _ => a + x.2.1 | none => a + x.2.1 * x.2.2
        decide (a < off + data.length) && decide (off < b)
      | none => false

/-- The rest of a CONTROL body by kind (R273). -/
def CtlMsg.rest (m : CtlMsg) : List Byte :=
  if m.kind = 0x31 then
    toBytes 4 m.ext ++ toBytes 2 m.data.length ++ [0, 0] ++ toBytes 4 (crc32c m.data).toNat ++ m.data
  else
  if m.kind = 0x10 || m.kind = 0x20 || m.kind = 0x22 then toBytes 1 m.ext
  else if m.kind = 0x33 then toBytes 10 (m.step.toNat + m.ident.toNat * 2 ^ 32 + m.epoch.toNat * 2 ^ 64)
  else match m.img with | some g => tableBytes g | none => []

/-! ### Opening a context (R167, R249, R250) -/

/-- Smallest power of two not less than q, as an exponent (R167). -/
def ceilLog2 (q : Q) : Int := let e := Q.log2 q; if Q.eq (Q.pow2 e) q then e else e + 1

/-- The exponent of u0 (R167), and whether the calibration entry missed. -/
def Part.openExp (s : Part) (b : BitVec 768) (e : StreamEntry) : Int × Bool :=
  let g : Int := if Tb.fmt b = 0x1D then (Tb.grow b : Int) - 20 else (Tb.grow b : Int)
  let of (a : Q) : Int :=
    if Q.isZero a then Tb.exp0 b
    else min (max (ceilLog2 (Q.div (Q.mul a (Q.pow2 g)) ⟨32766, 1⟩)) (-126)) 127
  if Tb.expSrc b = 1 then
    let c := tabGet s.ssu.cal ((e.calBase.toNat + Tb.calidx b) % 65536) 0
    match Fmt.ofCode (Cal.fmt c) with
    | some f => if Cal.usable c e && f.isLedger then (of (Q.mul (scaleQ (Cal.scale c)) f.qmax), false) else (Tb.exp0 b, true)
    | none => (Tb.exp0 b, true)
  else if Tb.expSrc b = 2 then
    let v := s.env (Tb.stream b)
    if v.ring.isEmpty then (Tb.exp0 b, false)
    else (of (Q.mul ⟨16 + e.headroom.toNat, 16⟩ (Q.maxQ (bfQ v.eHi) (Q.neg (bfQ v.eLo)))), false)
  else (Tb.exp0 b, false)

/-- Reasons 0x02, 0x03 and 0x05 of R250, as the first that holds; 0 passes. PARTSRC = 1 goes with DEP_EXP 0 alone, as R166's table reads;
another DEP_EXP beside it fails with 0x02 (DEDUCED, log entry 50). -/
def blockReason (b : BitVec 768) (ue : Bool) : Nat :=
  let rOk := match Fmt.ofCode (Tb.rfmt b) with
    | some f => if f.isRun then decide (Tb.rfmt b = Tb.fmt b) else f == .fp32 || f == .bf16 || f.isLedger
    | none => false
  if ue || Tb.reservedSet b || Tb.msize b = 0 || Tb.msize b ≤ Tb.rank b || Tb.rsize b < Tb.rpos b || Tb.hsize b < Tb.hpos b
      || 8 < Tb.depExp b || decide (Tb.depExp b = 0) != Tb.partSrc b || Tb.budget b = 0 || Tb.nunits b = 0 || Tb.lgMask b = 0
      || Tb.expSrc b = 3 || Tb.exp0 b < -126 || (Tb.fmt b ≠ 0x1C && Tb.fmt b ≠ 0x1D) || Tb.dest b % 64 ≠ 0 || Tb.partOff b % 64 ≠ 0 then 2
  else if !rOk then 3
  else if Tb.dfmt b = 0 || Tb.dfmt b = 1 || Tb.dfmt b = 2 then 0
  else 5

/-- Reason 0x04 of R250: K0's check against its group table. -/
def Part.tableReason (s : Part) (b : BitVec 768) : Bool :=
  match s.groups.find? fun g => decide (g.2.slot = Tb.gtab b) with
  | none => true
  | some g =>
    let img := g.2.img
    let r := Tb.rank b
    let k := (img.member r).rack.toNat
    decide (g.1 ≠ Tb.group b) || decide (img.members.length ≠ Tb.msize b) || decide (g.2.rank ≠ some r) || g.2.courierOnly
      || decide (k ≠ Tb.hpos b) || decide ((img.rack k).getD (Tb.rpos b) 65536 ≠ r) || decide ((img.rack k).length ≠ Tb.rsize b + 1)
      || decide (img.hMinus1.toNat ≠ Tb.hsize b)

/-- A new context (R166, R250); EXP0 holds the exponent used. -/
def Part.newCtx (s : Part) (b : BitVec 768) (role : CtxRole) (owner : Option (Nat × Byte × Bool)) (opening : Bool) : Ctx :=
  let e := s.stream (Tb.stream b)
  let x := if Tb.expSrc b = 3 then Tb.exp0 b else (s.openExp b e).1
  { blk := setFld b 56 8 (BitVec.ofInt 8 x).toNat, se := e, signs := s.signUnits e, exp0 := x, written := BitVec.ofNat 8 (fld b 56 8), opening := opening, failReason := 0,
    owner := owner, role := role, bcast := false, deliveredCnt := 0, doneSent := false, status := 0, chunks := [], ins := [], outs := [] }

/-- The context once its unit is fixed (R167): the copies of its stream entry and sign vector are those it took at issue (R96). -/
def Ctx.opened (x : Ctx) (e : Int) : Ctx :=
  { x with blk := setFld x.blk 56 8 (BitVec.ofInt 8 e).toNat, exp0 := e, written := BitVec.ofNat 8 (fld x.blk 56 8), opening := false, failReason := 0 }

/-- A context comes into service: its registers cleared, the twin told, part rows asked for, its group's last block kept (R18, R172,
R308, R343). -/
def Part.ctxOpened (s : Part) (c : Nat) : Part :=
  match s.ctxOf 0 c with
  | none => s
  | some x =>
    let s := s.onGroup (Tb.group x.blk) fun g => { g with lastBlk := some (c, setFld x.blk 56 8 x.written.toNat), closedSeq := none }
    let s := (s.tetherRegs' 0 c).mirror (.context (Fin.ofNat 64 c) x.blk)
    if Tb.partSrc x.blk && x.role = .member then s.askParts c 0 else s

/-- A member that acts without contributing (R263, R308): held rows go on, chunks that start here start. -/
def Part.actAbsent (s : Part) (bank c : Nat) : Part :=
  match s.ctxOf bank c with
  | none => s
  | some x =>
    let starts := (List.range (Tb.chunks x.blk)).filter fun n => x.isStart n
    (s.each (x.chunks.map Prod.fst) fun s n => s.rackStep bank c n).each starts fun s n => s.rackStep bank c n

/-- K1 opens a Harbour context from the group's last block with the chunk's SEQ (R308), under the number that the group's last context had, or where
that serves another context under the lowest free one: a block names no number (DESIGN CHOICE, log entry 50). -/
def Part.harbourOpen (s : Part) (group seq : Nat) : Part :=
  match s.group group with
  | none => s
  | some g =>
    match g.lastBlk with
    | none => s
    | some (c0, b) =>
      match (c0 :: List.range 64).find? fun c => (s.ctxOf 0 c).isNone with
      | none => s
      | some c =>
        let x := s.newCtx (setFld b 184 16 seq) .harbour none false
        let s := s.calMiss (s.openExp b x.se).2 (Tb.stream b)
        ((s.setCtx 0 c x).ctxOpened c).actAbsent 0 c

/-! ### The journal (R271) -/

/-- The message of one journal entry to one member. -/
def orderMsg (g : Group) (e : JEntry) (dst : FabId) : CtlMsg :=
  { dst := dst, kind := e.kind.toNat,
    c := { src := g.mgrId, group := g.img.group, jseq := e.jseq, seq := BitVec.ofNat 16 (fld e.data 0 16), chunk := e.chunk, rank := e.rank },
    ext := 0, img := if e.kind = 0x30#8 then some g.img else none, step := BitVec.ofNat 32 (fld e.data 64 32),
    ident := BitVec.ofNat 17 (fld e.data 16 17), epoch := BitVec.ofNat 16 (fld e.data 48 16), items := [] }

/-- The starter a GO is for: the start member, or the first live position after it (R184, R260, R262), for every rack group. -/
def GroupImage.starters (g : GroupImage) (c : Nat) : List Nat :=
  (List.range (g.hMinus1.toNat + 1)).filterMap fun k =>
    let rs := g.rack k
    ((List.range rs.length).map fun d => rs.getD ((c + d) % max 1 rs.length) 0).find? fun r => !g.deadRank r

/-- A rank is dead for good, and not for the rest of a SEQ alone (R262, R282). -/
def Group.gone (g : Group) (r : Nat) : Bool := g.img.deadRank r && g.seqSkips.all fun x => decide (x.1 ≠ r)

/-- Who gets an order: every member that is not lost for good. -/
def Group.targets (g : Group) (e : JEntry) : List FabId :=
  if e.kind = 0x15#8 then (g.img.starters e.chunk.toNat).map fun r => (g.img.member r).ident
  else if e.kind = 0x30#8 then [BitVec.ofNat 17 (fld e.data 16 17)]
  else ((List.range g.img.members.length).filter fun r => !g.gone r).map fun r => (g.img.member r).ident

/-- Orders that need no answer are done when sent (R271 step 3). -/
def needsAnswer (kind : Byte) : Bool := kind = 0x11#8 || kind = 0x13#8 || kind = 0x30#8

/-- The orders of an entry go out, once K0 is up (R302). -/
def Part.sendOrder (s : Part) (n : Nat) (jseq : W32) : Part :=
  match s.group n with
  | none => s
  | some g =>
    match g.journal.find? fun e => decide (e.jseq = jseq) with
    | none => s
    | some e =>
      if !s.mb.runs 0 then s.onGroup n fun g => { g with unaccepted := g.unaccepted.filter fun j => j ≠ jseq, unsent := g.unsent ++ [jseq] } else
      let s := s.onGroup n fun g =>
        { g with
          unaccepted := g.unaccepted.filter fun j => j ≠ jseq
          unsent := g.unsent.filter fun j => j ≠ jseq
          journal := g.journal.map fun x => if x.jseq = jseq && !needsAnswer x.kind then { x with done := true } else x }
      let s := if needsAnswer e.kind then s else s.mirror (.journal g.img.group { e with done := true })
      s.each (g.targets e) fun s d => s.tell (orderMsg g e d)

/-- The shadow follows the journal, until the pair is known to be split or lost (R264, R269, R271, R280). -/
def Part.shadowed (s : Part) : Bool := s.twin.mirrorEn && decide (s.twin.st.toNat ≤ 2) && !s.twin.lostTold

/-- The manager appends an entry, and sends its orders once the shadow has accepted it. `data` holds SEQ [15:0], identity [32:16],
epoch [63:48], step [95:64]. -/
def Part.order (s : Part) (n : Nat) (kind : Byte) (rank chunk data : Nat) : Part :=
  match s.group n with
  | none => s
  | some g =>
    let e : JEntry :=
      { jseq := g.nextJseq, kind := kind, done := false, step := s.glob.step, rank := BitVec.ofNat 16 rank, chunk := BitVec.ofNat 32 chunk,
        data := BitVec.ofNat 112 data }
    let wait := s.shadowed
    let s := s.onGroup n fun g =>
      { g with
        nextJseq := g.nextJseq + 1
        journal := (g.journal ++ [e]).drop (g.journal.length + 1 - 4096)
        unaccepted := if wait then g.unaccepted ++ [e.jseq] else g.unaccepted }
    let s := s.mirror (.journal g.img.group e)
    if wait then s else s.sendOrder n e.jseq

/-- Every answer an order requires has arrived: DONE, mirrored too (R271). -/
def Part.entryDone (s : Part) (n : Nat) (kind : Byte) (p : JEntry → Bool) : Part :=
  match s.group n with
  | none => s
  | some g =>
    let es := g.journal.filter fun e => e.kind = kind && p e && !e.done
    let s := s.onGroup n fun g => { g with journal := g.journal.map fun e => if e.kind = kind && p e then { e with done := true } else e }
    s.each es fun s e => s.mirror (.journal g.img.group { e with done := true })

/-- K0 is back: the orders that waited for it go out (R302). -/
def Part.sendLate (s : Part) : Part := s.each s.groups fun s g => s.each g.2.unsent fun s j => s.sendOrder g.1 j

/-- Without a shadow the orders that wait go out (R269). -/
def Part.releaseOrders (s : Part) : Part :=
  s.each s.groups fun s g => s.each g.2.unaccepted fun s j => s.sendOrder g.1 j

/-! ### The manager: counts, losses, spares (R262, R274, R278 to R280) -/

/-- SEQs are over: the ranks skipped for them, and for no other, return (R282). -/
def Group.skipsOver (g : Group) (past : W16 → Bool) : Group :=
  let rest := g.seqSkips.filter fun x => !past x.2
  let back := (g.seqSkips.filter fun x => past x.2 && rest.all fun y => decide (y.1 ≠ x.1)).map Prod.fst
  { g with img := back.foldl (fun i r => i.setMember r fun m => { m with dead := false }) g.img, seqSkips := rest }
/-- The SEQ is complete. -/
def Group.skipsEnd (g : Group) (q : W16) : Group := g.skipsOver fun x => decide (x = q)
/-- The step is abandoned, and with it every SEQ under way. -/
def Group.skipsDrop (g : Group) : Group := g.skipsOver fun _ => true

/-- A rank is dead: for good, or for the rest of a SEQ (R262, R282). One that is dead for good stays so. -/
def Group.skipped (g : Group) (r : Nat) (seq : Option W16) : Group :=
  { g with
    img := g.img.setMember r fun m => { m with dead := true }
    seqSkips := match seq with
      | some q => if g.gone r || g.seqSkips.contains (r, q) then g.seqSkips else (r, q) :: g.seqSkips
      | none => g.seqSkips.filter fun x => x.1 ≠ r }

/-- The live fraction is below the floor (R279). -/
def Group.below (g : Group) : Bool :=
  decide ((g.img.members.length - g.dropped.length) * 65536 < g.img.floor.toNat * g.img.members.length)

/-- A member counts once in D; at the floor the step is abandoned (R279). -/
def Part.countDrop (s : Part) (n rank : Nat) : Part :=
  match s.group n with
  | none => s
  | some g =>
    if g.dropped.contains rank then s
    else
      let s := (s.onGroup n fun g => { g with dropped := g.dropped ++ [rank] }).mirrorManaged n
      if !g.below && ({ g with dropped := g.dropped ++ [rank] } : Group).below then
        let s := s.order n 0x23 0 0 0
        if g.rank.isNone && !g.seqSkips.isEmpty then (s.onGroup n Group.skipsDrop).mirrorGroup n else s
      else s

/-- The image of a failed twin that its survivor holds (R274, R275): the last snapshot in the mirror store, or before the first the live state. -/
def Part.shadowImage (s : Part) : List MirrorItem :=
  let m := s.twin.mirror
  match m.snapLast with
  | some x => x.items.reverse
  | none =>
  ((List.range 9).map fun q => .sequencerState (Fin.ofNat 9 q) (tabGet m.seqs q Seq.reset.image))
    ++ (match m.credits with | some c => [.creditCounters c.1 c.2.1 c.2.2.1 c.2.2.2] | none => [])
    ++ (m.ctxs.map fun x => .context (Fin.ofNat 64 x.1) x.2)
    ++ (m.received.map fun x => .chunkReceived (Fin.ofNat 64 x.1) x.2.1 x.2.2)
    ++ (m.forwarded.map fun x => .chunkForwarded (Fin.ofNat 64 x.1) x.2.1 x.2.2)
    ++ (m.finished.map fun x => .chunkFinished (Fin.ofNat 64 x.1) x.2)
    ++ (m.xfers.map fun x => .transfer (BitVec.ofNat 8 x.1) x.2.1 x.2.2)
    ++ (m.unacked.map fun x => .unacked (BitVec.ofNat 16 x.1) x.2.1 x.2.2)
    ++ (m.fabric.map fun x => .fabricCredits (Fin.ofNat 8 x.1) x.2)
    ++ (m.roles.map fun x => .roleEntry (BitVec.ofNat 17 x.1) x.2)
    ++ (m.streams.map fun x => .streamEntry (Fin.ofNat 4096 x.1) x.2)
    ++ ((m.envs.filter fun x => !m.bad.contains (.envelope (Fin.ofNat 4096 x.1))).map fun x => .envelope (Fin.ofNat 4096 x.1) x.2.1 x.2.2)
    ++ (m.members.map fun x => .membership x.2.1 x.2.2)
    ++ m.jseqs.map fun x => .lastJseq (BitVec.ofNat 16 x.1) x.2

/-- The shadow drain to a spare (R274, R277): the whole image, its header and then its pieces in SHADOW messages. Before the twin's first snapshot
its active set was A. -/
def Part.shadowDrain (s : Part) (dst : FabId) : Part :=
  let last := s.twin.mirror.snapLast
  let x : Snapshot :=
    { magic := 0x574C5350, ident := s.twinId, step := (last.map SnapIn.step).getD s.glob.step, set := (last.map SnapIn.set).getD false, len := 884992,
      items := s.shadowImage }
  let ps := imagePlaces x.items
  let c : Ctrl := { src := s.ownId, group := 0, jseq := 0, seq := 0, chunk := 0, rank := 0 }
  let s := s.tell { CtlMsg.mk' dst 0x31 c 0 with data := x.header }
  s.each imagePieces fun s p =>
    s.tell { CtlMsg.mk' dst 0x31 c p.1 with data := pieceBytes ps p, items := (piecePlaces ps p).map fun i => i.2.2 }

/-- The next spare is drawn for a lost rank (R274): it leaves the list, and gets the image of the lost member where that was this instance's
twin, taken over. Who drains the image where manager and survivor are different instances, the spec does not say (log entry 52). -/
def Part.drawSpare (s : Part) (n rank : Nat) : Part :=
  match s.group n with
  | none => s
  | some g =>
    if g.frozen then s
    else match g.img.spares with
      | [] => s
      | i :: rest =>
        let s := (s.onGroup n fun g =>
          { g with
            img := { g.img with spares := rest }
            drawing := (g.drawing.filter fun d => d.1 ≠ rank) ++ [(rank, i)] }).mirrorManaged n
        let s := if s.gh.twinValid && decide ((g.img.member rank).ident = s.gh.identTwin) then s.shadowDrain i else s
        s.order n 0x30 rank 0 (i.toNat * 2 ^ 16)

/-- The manager's acknowledgements of a replay are complete. -/
def Group.allIn (g : Group) (l : List Nat) : Bool := g.img.live.all l.contains

/-- All live members have delivered and no replay runs: COMPLETE (R189). -/
def Part.tryComplete (s : Part) (n : Nat) : Part :=
  match s.group n with
  | none => s
  | some g =>
    match g.completeSeq with
    | none => s
    | some q =>
      if g.replays.all (fun r => decide (r.2.seq ≠ q)) && g.allIn g.delivered then
        let s := (s.onGroup n fun g => { g with delivered := [], completeSeq := none }).order n 0x17 0 0 q.toNat
        if g.rank.isNone then s.onGroup n fun g => g.skipsEnd q else s
      else s

/-- The replays that wait for nobody any more go on (R260). -/
def Part.replayStep (s : Part) (n : Nat) : Part :=
  match s.group n with
  | none => s
  | some g =>
    s.each g.replays fun s r =>
      match s.group n with
      | none => s
      | some g =>
        let m := r.2
        if m.phase = 0 && g.allIn m.prepAcks then
          let t := s.now
          (s.onGroup n fun g => { g with replays := tabInsert g.replays r.1 { m with phase := 1, lastAck := t } }).entryDone n 0x11
            fun e => decide (e.chunk.toNat = r.1)
        else if m.phase = 2 && g.allIn m.armAcks then
          let s := (s.onGroup n fun g => { g with replays := tabErase g.replays r.1 }).entryDone n 0x13 fun e => decide (e.chunk.toNat = r.1)
          s.order n 0x15 0 r.1 m.seq.toNat
        else s

/-- A rank is skipped (R262, R279): counted, dead in the table for good, SKIP to every member. -/
def Part.skipRank (s : Part) (n rank : Nat) : Part :=
  let s := s.countDrop n rank
  match s.group n with
  | none => s
  | some g => if g.gone rank then s else ((s.onGroup n fun g => g.skipped rank none).mirrorGroup n).order n 0x21 rank 0 0

/-- The rank of a member's twin, where the group holds it. -/
def GroupImage.pairOf (g : GroupImage) (rank : Nat) : Option Nat := g.rankOf ((g.member rank).ident ^^^ 1#17)

/-- The pair is split or resynchronises (R269). -/
def Twin.splitNow (t : Twin) : Bool := t.st = 4#3 || t.st = 5#3

/-- A rank is lost (R260, R262, R264, R279, R280): counted, skipped unless its twin serves it, its recovery window opened, a spare
drawn. A second loss inside the window takes the pair: the rank that its twin served is skipped with it. The twin of a spare that is
being installed reports the spare's loss, and the next one is drawn (R274). While this instance's own pair is split or resynchronises, the loss of either
of its ranks takes both (R269). -/
def Part.rankLost (s : Part) (n rank : Nat) (takeover : Bool) (src : Option FabId) : Part :=
  match s.group n with
  | none => s
  | some g =>
    let id := (g.img.member rank).ident
    let takeover := takeover && !(s.twin.splitNow && decide (id = s.ownId ∨ id = s.twinId))
    if g.drawing.any fun d => decide (d.1 = rank) && decide (src = some (d.2 ^^^ 1#17)) then s.drawSpare n rank
    else
      let known := g.recovery.any fun r => decide (r.1 = rank)
      let s := (if known then s else s.onGroup n fun g => { g with recovery := g.recovery ++ [(rank, 2)] }).countDrop n rank
      let s := if takeover then s
        else
          let s := s.skipRank n rank
          match g.img.pairOf rank with
          | some p =>
            if (g.recovery.any fun r => decide (r.1 = p)) || (s.twin.splitNow && decide (id = s.ownId ∨ id = s.twinId)) then s.skipRank n p else s
          | none => s
      ((if known then s else s.drawSpare n rank).replayStep n).tryComplete n

/-- A STALL starts a replay unless one is under way (R259, R260). -/
def Part.mgrStall (s : Part) (n : Nat) (c : Ctrl) : Part :=
  match s.group n with
  | none => s
  | some g =>
    if (tabFind g.replays c.chunk.toNat).isSome then s
    else
      let r : MgrReplay :=
        { phase := 0, seq := c.seq, jseq := g.nextJseq, prepAcks := [], armAcks := [], lastAck := 0, since := s.now }
      (s.onGroup n fun g => { g with replays := tabInsert g.replays c.chunk.toNat r, delivered := if g.completeSeq = some c.seq then [] else g.delivered }).order n 0x11 0 c.chunk.toNat c.seq.toNat

/-- A live rank owes the answer that a replay waits for (R260). -/
def MgrReplay.owed (m : MgrReplay) (r : Nat) : Bool := (m.phase = 0 && !m.prepAcks.contains r) || (m.phase = 2 && !m.armAcks.contains r)

/-- The 200 µs for the answers to a replay's PREP or ARM had ended at `t` (R137, R138, R260): the ranks that have not answered are lost, before what
comes at `t`. -/
def Part.replayExpire (s : Part) (n k t : Nat) : Part :=
  match s.group n with
  | none => s
  | some g =>
    match tabFind g.replays k with
    | none => s
    | some m => if m.since + 200000 ≤ t then s.each (g.img.live.filter m.owed) fun s r => s.rankLost n r false none else s

/-- PREP_ACK and ARM_ACK (R260), by the stamp of their arrival. A PREP_ACK says that what the member delivered before is withdrawn (R189). -/
def Part.mgrAck (s : Part) (n : Nat) (c : Ctrl) (arm : Bool) (t : Nat) : Part :=
  let k := c.chunk.toNat
  let s := (s.replayExpire n k t).onGroup n fun g =>
    match tabFind g.replays k with
    | none => g
    | some m =>
      let r := c.rank.toNat
      if arm then { g with replays := tabInsert g.replays k { m with armAcks := r :: m.armAcks } }
      else
        { g with
          replays := tabInsert g.replays k { m with prepAcks := r :: m.prepAcks }
          delivered := if g.completeSeq = some m.seq then g.delivered.filter fun d => d ≠ r else g.delivered }
  (s.replayStep n).tryComplete n

/-- DELIVERED (R189). -/
def Part.mgrDelivered (s : Part) (n : Nat) (c : Ctrl) : Part :=
  (s.onGroup n fun g =>
    if g.completeSeq = some c.seq then { g with delivered := c.rank.toNat :: g.delivered }
    else { g with completeSeq := some c.seq, delivered := [c.rank.toNat] }).tryComplete n

/-- DROP (R279, R282): reason 3 skips the rank for the rest of the SEQ. Such a SKIP carries the SEQ, and CHUNK 1 to tell SEQ 0 from a loss (log entry
14). -/
def Part.mgrDrop (s : Part) (n : Nat) (c : Ctrl) (reason : Nat) : Part :=
  let s := s.countDrop n c.rank.toNat
  if reason = 3 then
    ((((s.onGroup n fun g => g.skipped c.rank.toNat (some c.seq)).mirrorGroup n).order n 0x21 c.rank.toNat 1 c.seq.toNat).replayStep n).tryComplete n
  else s

/-- INSTALLED (R274, R326): a spare that was drawn is redrawn in; a member that joins gets its table. -/
def Part.mgrInstalled (s : Part) (n : Nat) (c : Ctrl) : Part :=
  match s.group n with
  | none => s
  | some g =>
    match g.drawing.find? fun d => decide (d.2 = c.src) with
    | some d =>
      let s := (s.onGroup n fun g => { g with drawing := g.drawing.filter fun x => x ≠ d }).entryDone n 0x30 fun e => decide (e.rank.toNat = d.1)
      let s := s.guest 0 1 0x0505 [BitVec.ofNat 32 n, BitVec.ofNat 32 d.1, BitVec.ofNat 32 d.2.toNat]
      s.order n 0x33 d.1 0 (d.2.toNat * 2 ^ 16 + (s.roleOf d.2 + 1).toNat * 2 ^ 48 + (s.glob.step + 1).toNat * 2 ^ 64)
    | none =>
      if (g.img.rankOf c.src).isSome then
        s.tell { CtlMsg.mk' c.src 0x30 { c with src := g.mgrId, jseq := 0, rank := BitVec.ofNat 16 ((g.img.rankOf c.src).getD 0) } 0 with img := some g.img }
      else s

/-! ### The member (R260, R262, R279, R283) -/

/-- JSEQ is newer than the last executed (R271). -/
def newerJseq (a b : W32) : Bool := let d := (a - b).toNat; decide (1 ≤ d) && decide (d < 2 ^ 31)

/-- The open contexts of a group and SEQ, as (bank, number). -/
def Part.ctxsOf (s : Part) (group : W16) (seq : Option W16) : List (Nat × Nat) :=
  let ok (x : Ctx) : Bool := !x.opening && decide (Tb.group x.blk = group.toNat)
    && (match seq with | some q => decide (Tb.seq x.blk = q.toNat) | none => true)
  ((s.ctxs.filter fun k => ok k.2).map fun k => (0, k.1)) ++ ((s.twinCtxs.filter fun k => ok k.2).map fun k => (1, k.1))

/-- The context of a closed or abandoned group ends (R251): ABORTED. -/
def Part.abortCtx (s : Part) (bank c : Nat) : Part := s.ctxEnd bank c 2

/-- A step is abandoned at this member (R251, R272, R279, R282); its SEQs are over. -/
def Part.abandonStep (s : Part) (group : W16) (d : Nat) : Part :=
  let s := s.each (s.ctxsOf group none) fun s k =>
    let q := (s.ctxOf k.1 k.2).map fun x => BitVec.ofNat 16 (Tb.seq x.blk)
    (s.abortCtx k.1 k.2).onGroup group.toNat fun g => { g with closedSeq := if k.1 = 0 then q else g.closedSeq }
  let s := match s.group group.toNat with
    | some g => if g.seqSkips.isEmpty then s else (s.onGroup group.toNat Group.skipsDrop).mirrorGroup group.toNat
    | none => s
  (s.note 3 group s.glob.step).guest 1 3 0x0306 [BitVec.ofNat 32 group.toNat, s.glob.step, BitVec.ofNat 32 d]

/-- The manager is lost (R272): MANAGER_LOST, the request to form the group again, and the step is abandoned. -/
def Part.managerLost (s : Part) (group : W16) : Part :=
  let d := match s.group group.toNat with | some g => g.dropped.length | none => 0
  let s := s.onGroup group.toNat fun g => { g with reportAt := none }
  ((s.note 5 group 0).note 6 group 2).abandonStep group d

/-- An order reached this member at `t`, when the window of its report had ended (R137, R138, R272). -/
def Part.managerLate (s : Part) (group : W16) (t : Nat) : Bool :=
  match (s.group group.toNat).bind Group.reportAt with
  | some t0 => decide (t0 + 1000000 ≤ t)
  | none => false

/-- The order is new to this member; the report it may answer is answered (R271, R272), or was without an answer too long. -/
def Part.fresh (s : Part) (c : Ctrl) (t : Nat) : Bool × Part :=
  let s := if s.managerLate c.group t then s.managerLost c.group else s
  match s.group c.group.toNat with
  | none => (false, s)
  | some g =>
    let n := newerJseq c.jseq g.jseqLast
    let s := s.onGroup c.group.toNat fun g =>
      { g with
        jseqLast := if n then c.jseq else g.jseqLast
        mgrId := c.src
        reportAt := none }
    (n, if n then s.mirror (.lastJseq c.group c.jseq) else s)

/-- An answer to the manager for every rank this instance serves. -/
def Part.answerOrder (s : Part) (c : Ctrl) (kind : Nat) : Part :=
  match s.group c.group.toNat with
  | none => s
  | some g =>
    let ranks := g.rank.toList ++ (if s.gh.twinValid then (g.img.rankOf s.gh.identTwin).toList else [])
    s.each ranks fun s r => s.tell (.mk' c.src kind { c with src := s.ownId, jseq := 0, rank := BitVec.ofNat 16 r } 0)

/-- PREP (R260 step 1; writes of the first delivery count no more, R189): rows and results of the chunk are discarded, the contribution stays, a DELIVERED is withdrawn (R189). -/
def Part.prepCtx (s : Part) (bank c n : Nat) (jseq : W32) : Part :=
  match s.ctxOf bank c with
  | none => s
  | some x =>
    let ch := x.chunk n
    let ins := x.ins.filter fun i => decide (Ch.chunk i.hdr = n)
    let outs := x.outs.filter fun o => decide (o.chunk = n)
    let s := s.each ins fun s i => s.release (some i.need)
    let s := s.each outs fun s o => (if o.owned then s.release (some o.need) else s).release o.rel
    let s := s.each (ch.held.toList ++ ch.heldHall.toList ++ ch.rackRow.toList ++ ch.finished.toList) fun s r => s.release r.buf
    let s := s.release ch.delBuf
    let s := s.each (s.gh.outMsgs.filter fun o => o.2.chunk = some (bank, c, n)) fun s o =>
      (s.release o.2.buf).onLg o.2.lg fun l =>
        { l with queues := l.queues.map fun q => q.filter fun f => !(decide (f.ftype = .tether) && decide (s.outKey f.src f.msgid = o.1)) }
    let s := s.onGh fun g =>
      { g with
        outMsgs := g.outMsgs.filter fun o => o.2.chunk ≠ some (bank, c, n)
        loops := g.loops.filter fun m =>
          !(decide (m.src = s.bankId bank) && decide (Ch.group m.hdr = Tb.group x.blk) && decide (Ch.chunk m.hdr = n)) }
    let s := s.forget fun u => match u with | .deliver b k i => decide (b = bank) && decide (k = c) && decide (i = n) | _ => false
    let s := s.onCtx bank c fun y =>
      { (y.onChunk n fun k =>
          { k with
            held := none
            heldHall := none
            rackRow := none
            finished := none
            bcastHeld := false
            hopDone := false
            hallDone := false
            delivered := false
            forwarded := false
            startAt := none
            stallAt := none
            absent := false
            go := false
            delBuf := none
            unfed := []
            due := 0
            replay := .prepped }) with
        ins := y.ins.filter fun i => !decide (Ch.chunk i.hdr = n)
        outs := y.outs.filter fun o => !decide (o.chunk = n)
        doneSent := false }
    let s := if bank = 0 then s.mirror (.chunkRestarted (Fin.ofNat 64 c) n) else s
    let s := s.onWs (Tb.hopWs x.blk) fun w => { w with replayCnt := satAdd w.replayCnt 1 }
    s.guest 0 2 0x0304 [BitVec.ofNat 32 (Tb.group x.blk), BitVec.ofNat 32 n, jseq]

def Part.takePrep (s : Part) (c : Ctrl) (t : Nat) : Part :=
  let f := s.fresh c t
  let s := if f.1 then f.2.each (f.2.ctxsOf c.group (some c.seq)) fun s k => s.prepCtx k.1 k.2 c.chunk.toNat c.jseq else f.2
  s.answerOrder c 0x12

/-- ARM (R260 step 3). -/
def Part.takeArm (s : Part) (c : Ctrl) (t : Nat) : Part :=
  let f := s.fresh c t
  let n := c.chunk.toNat
  let s := if f.1 then
      f.2.each (f.2.ctxsOf c.group (some c.seq)) fun s k =>
        let s := (s.onChunk k.1 k.2 n fun z => { z with replay := if z.replay = .prepped then .armed else z.replay }).openStall k.1 k.2 n
        match s.ctxOf k.1 k.2 with
        | some x =>
          match (if (x.chunk n).contrib.isNone && x.role = .member && k.1 = 0 then x.complete n else none) with
          | some us => s.contribute k.1 k.2 n us
          | none => s
        | none => s
    else f.2
  s.answerOrder c 0x14

/-- The successor that a GO names starts once its contribution is complete; a member without one starts at once (R260, R263). -/
def Part.goOn (s : Part) (bank c n : Nat) : Part :=
  match s.ctxOf bank c with
  | none => s
  | some x =>
    let m := Tb.rsize x.blk + 1
    if x.role = .member then s.rackStep bank c n else s.startChunk bank c n ((Tb.rpos x.blk + m - n % m) % m + 1) true

/-- GO (R260 step 4): the start member, or the first live one after it, sends its contribution. -/
def Part.takeGo (s : Part) (c : Ctrl) (t : Nat) : Part :=
  let f := s.fresh c t
  let n := c.chunk.toNat
  if f.1 then
    f.2.each (f.2.ctxsOf c.group (some c.seq)) fun s k =>
      match s.ctxOf k.1 k.2 with
      | none => s
      | some x =>
        match s.tableOf x with
        | none => s
        | some g =>
          if (x.chunk n).replay ≠ .armed || (x.chunk n).hopDone then s
          else if x.isStart n then (s.onChunk k.1 k.2 n fun z => { z with replay := .running }).rackStep k.1 k.2 n
          else if x.isSuccessor g n && g.deadRank ((g.rack (Tb.hpos x.blk)).getD (n % (Tb.rsize x.blk + 1)) 0) then
            (s.onChunk k.1 k.2 n fun z => { z with replay := .running, startTaken := true, go := true }).goOn k.1 k.2 n
          else s
  else f.2

/-- COMPLETE (R189): the contexts of the SEQ complete; ranks skipped for it return (R282). -/
def Part.takeComplete (s : Part) (c : Ctrl) (t : Nat) : Part :=
  let f := s.fresh c t
  if f.1 then
    let s := f.2.each (f.2.ctxsOf c.group (some c.seq)) fun s k => s.ctxEnd k.1 k.2 0
    let s := s.onGroup c.group.toNat fun g => g.skipsEnd c.seq
    match f.2.group c.group.toNat with
    | some g => if g.seqSkips.any fun x => decide (x.2 = c.seq) then s.mirrorGroup c.group.toNat else s
    | none => s
  else f.2

/-- The groups of which the twin is a member, with its rank: from the mirror, and from the tables this instance holds. -/
def Part.twinRanks (s : Part) : List (Nat × Nat) :=
  s.groups.filterMap fun g => (g.2.img.rankOf s.twinId).map fun r => (g.1, r)

/-- The twin's memberships become known to K0 for reports and answers, without a membership of this instance's own (R37). -/
def Part.adoptMembers (s : Part) : Part :=
  s.each s.twin.mirror.members fun s m =>
    if (s.group m.1).isSome then s
    else
      { s with
        groups := tabInsert s.groups m.1
          { Group.new m.2.1 64 false none false m.2.2 with ofTwin := true, jseqLast := tabGet s.twin.mirror.jseqs m.1 0 } }

/-- A LOSS report for the twin's rank to every manager concerned (R264, R273). -/
def Part.reportTwin (s : Part) (takeover : Bool) : Part :=
  s.each s.twinRanks fun s r => s.tellManager s.ownId r.1 0x20 0 0 r.2 (b2n takeover)

/-- Both ranks of the pair are reported lost, with no takeover (R257, R269): a die fails while the pair is not in step. -/
def Part.reportPair (s : Part) : Part :=
  (s.each (s.groups.filter fun g => !g.2.ofTwin) fun s g =>
    match g.2.rank with | some r => s.tellManager s.ownId g.1 0x20 0 0 r 0 | none => s).reportTwin false

/-- SKIP (R262, R282, R283): the rank is dead in the table, the Courier tree is rebuilt with its epoch, and what waited for the rank goes on. A SKIP with a
SEQ, or with CHUNK 1, is for the rest of that SEQ. Where the twin's rank is lost while the pair is split or resynchronises, the pair has failed, and this
die reports both its ranks (R257, R269; DEDUCED, log entry 32: R273 has no message by which a manager elsewhere learns of a split). -/
def Part.takeSkip (s : Part) (c : Ctrl) (t : Nat) : Part :=
  let f := s.fresh c t
  if !f.1 then f.2
  else
    let n := c.group.toNat
    let r := c.rank.toNat
    let s := f.2.onGroup n fun g => g.skipped r (if c.seq = 0#16 && c.chunk = 0#32 then none else some c.seq)
    let s := s.mirrorGroup n
    let s := s.guest 0 2 0x0305 [BitVec.ofNat 32 n, BitVec.ofNat 32 r]
    match s.group n with
    | none => s
    | some g =>
      let s := match g.rank with
        | some me => s.crRebind g.img me
        | none => s
      let s := if g.gone r && s.twin.splitNow && !s.twin.lostTold && decide ((g.img.member r).ident = s.twinId) then
          ((s.onTwin fun x => { x with lostTold := true }).adoptMembers).reportPair
        else s
      let s := s.each (s.ctxsOf c.group none) fun s k =>
        match s.ctxOf k.1 k.2 with
        | some x => s.each (x.chunks.map Prod.fst) fun s n => (s.rackStep k.1 k.2 n).hallStep k.1 k.2 n
        | none => s
      if g.manager && !g.frozen then (s.replayStep n).tryComplete n else s

def Part.takeAbandon (s : Part) (c : Ctrl) (t : Nat) : Part :=
  let f := s.fresh c t
  if f.1 then f.2.abandonStep c.group (match f.2.group c.group.toNat with | some g => g.dropped.length | none => 0) else f.2

/-- REDRAW (R274): kept until its step mark. -/
def Part.takeRedraw (s : Part) (c : Ctrl) (t : Nat) (step : W32) (ident : FabId) (epoch : W16) : Part :=
  let f := s.fresh c t
  if f.1 then f.2.onGroup c.group.toNat fun g => { g with redraws := g.redraws ++ [(step, c.rank.toNat, ident, epoch)] } else f.2

/-- The start-up step 10 ends when no join waits any more (R326). -/
def Part.joinsDone (s : Part) : Part :=
  if s.pwr.bootStep = 10 && s.pwr.joins.isEmpty then (s.onPwr fun p => { p with bootStep := 11 }).onGlob fun g => { g with ready := true } else s

/-- SPARE (R274, R326): a start-up join completes with the table inside its window, and fails at its end; a spare takes it up and answers INSTALLED. Its image, where it gets one,
comes ahead of the order (log entry 52); without one, a spare that was in no group starts with empty Envelopes (R277). The twin learns of the membership at the
rank that the spare will hold, and a Courier group is bound to the group (R219). A SPARE ahead of step 10, whose INSTALLED for a join is still to come, leaves
the join as it is. -/
def Part.takeSpare (s : Part) (c : Ctrl) (img : GroupImage) : Part :=
  let n := img.group.toNat
  match s.pwr.joins.find? fun j => decide (s.pwr.bootStep = 10) && decide (j.1 = img.group) with
  | some j =>
    let late := s.ended j.2.2.2 100000000
    let s := if late then s else s.takeGroup img j.2.2.1 false false c.src
    (s.onPwr fun p => { p with joinFail := p.joinFail || late, joins := p.joins.filter fun x => x ≠ j }).joinsDone
  | none =>
    let held := (s.group n).isSome
    if !held && s.membershipsFull then s
    else
      let s := if !s.twin.imageIn && s.groups.all fun g => g.2.rank.isNone then
          let ns := s.ssu.envs.map Prod.fst
          (s.onSsu fun u => { u with envs := u.envs.map fun e => (e.1, e.2.emptied) }).each ns Part.mirrorEnv
        else s
      let s := s.onTwin fun t => { t with imageIn := false }
      let s := if held then s.onGroup n fun g => { g with mgrId := c.src, img := img } else
        match s.freeSlot with
        | some k => s.takeGroup img k false false c.src
        | none => s
      let s := s.onGroup n fun g => { g with jseqLast := if newerJseq c.jseq g.jseqLast then c.jseq else g.jseqLast, rank := some c.rank.toNat }
      let s := s.mirror (.membership (img.setMember c.rank.toNat fun m => { m with ident := s.ownId }) c.src)
      let s := match s.group n with | some g => s.crTake g.img c.rank.toNat | none => s
      s.tell (.mk' c.src 0x32 { c with src := s.ownId, jseq := 0 } 0)

/-! ### Snapshots at a spare (R276, R277) -/

/-- What a piece of an image installs at a spare (R277): credits with the occupancy, role epochs, stream entries, Envelopes, memberships; sequencers STOPPED
and not LOADED; contexts, transfers and unacknowledged messages are discarded. -/
def Part.install (s : Part) (it : MirrorItem) : Part :=
  match it with
  | .roleEntry i e => (s.onGh fun g => { g with roles := tabSet g.roles i.toNat e 0 }).mirror it
  | .streamEntry n e => (s.onSsu fun u => { u with streams := tabSet u.streams n.val e .reset, streamsP := tabSet u.streamsP n.val e .reset }).mirror it
  | .envelope n ring acc =>
    (s.onEnv n.val fun v => let st := ringStat ring; { v with ring := ring, acc := acc, eHi := st.1, eLo := st.2 }).mirror it
  | .membership img mgr => match s.freeSlot with
    | some k => if (s.group img.group.toNat).isSome || s.membershipsFull then s else s.takeGroup img k false false mgr
    | none => s
  | .lastJseq g j => (s.onGroup g.toNat fun x => { x with jseqLast := j }).mirror it
  | .fabricCredits g c => (s.onLg g.val fun l => { l with credits := c }).mirror it
  | .creditCounters f c o n => (s.onLarder fun l =>
    { l with
      active := ⟨f, c, o⟩
      pendingSet := ⟨f, c, o⟩
      occ := n
      peak := l.peak.zipWith max n
      queue := l.queue.map fun r => { r with part := o.getD r.consumer 0 } }).mirror it
  | .sequencerState q y =>
    (s.onSeq q.val fun x =>
      { x with
        st := 5
        loaded := false
        pc := y.pc
        regs := y.regs
        lcs := y.lcs
        stack := y.stack
        events := y.events
        lenReg := y.len
        srcReg := y.src
        wait := .none
        waitOpc := 0
        waitEv := 0 }).mirrorSeq q.val
  | _ => s

/-! ### Dispatch of CONTROL kinds (R273) -/

/-- K0 takes a CONTROL message. PROBE and PROBE_ANS are the twin block's (R302). -/
def Part.k0 (s : Part) (m : CtlMsg) : Part :=
  let n := m.c.group.toNat
  let mgr := match s.group n with | some g => g.manager && !g.frozen | none => false
  match m.kind with
  | 0x10 => if mgr then s.mgrStall n m.c else s
  | 0x11 => s.takePrep m.c m.stamp
  | 0x12 => if mgr then s.mgrAck n m.c false m.stamp else s
  | 0x13 => s.takeArm m.c m.stamp
  | 0x14 => if mgr then s.mgrAck n m.c true m.stamp else s
  | 0x15 => s.takeGo m.c m.stamp
  | 0x16 => if mgr then s.mgrDelivered n m.c else s
  | 0x17 => s.takeComplete m.c m.stamp
  | 0x20 => if mgr then s.rankLost n m.c.rank.toNat (decide (m.ext % 2 = 1)) (some m.c.src) else s
  | 0x21 => s.takeSkip m.c m.stamp
  | 0x22 => if mgr then s.mgrDrop n m.c m.ext else s
  | 0x23 => s.takeAbandon m.c m.stamp
  | 0x30 => match m.img with | some g => s.takeSpare m.c g | none => s
  | 0x31 => (s.each (imageItems m.ext m.data m.items) fun s i => s.install i).onTwin fun t => { t with imageIn := true }
  | 0x32 => if mgr then s.mgrInstalled n m.c else s
  | 0x33 => s.takeRedraw m.c m.stamp m.step m.ident m.epoch
  | _ => s

/-- A CONTROL message for K0: it waits in the CONTROL queue of 512 while K0 is down (R291, R302). -/
def Part.control' (s : Part) (m : CtlMsg) : Part :=
  let s := s.wake .fwc
  let m := { m with stamp := s.now }
  if s.mb.runs 0 then s.k0 m
  else if s.mb.ctlq.length < 512 then s.onMb fun b => { b with ctlq := b.ctlq ++ [m] }
  else s.onMb fun b => { b with qlostC := BitVec.ofNat 16 (satN 16 b.qlostC.toNat 1) }

/-- One CONTROL message that the command made: over the fabric, or to K0 of this instance (R194 step 1). -/
def Part.sendCtl (s : Part) (m : CtlMsg) : Part :=
  if s.answers m.dst then s.control' m
  else s.sendSmall .control m.c.src m.dst (controlBody m.kind m.c.group m.c.jseq m.c.seq m.c.chunk m.c.rank m.rest)

/-- All of them, and what they lead to in turn. -/
def Part.flush : Nat → Part → Part
  | 0, s => s
  | n + 1, s =>
    match s.ctlOut with
    | [] => s
    | m :: rest => Part.flush n (({ s with ctlOut := rest } : Part).sendCtl m)

end Sys2Proof.Machine
end

