-- ==== Sys2Proof/Machine/TetherIn.lean ====
section
/-! DEFINITION. A chunk as it arrives at its member (R168, R169, R173, R183 to R186, R188, R259, R282, R284, R308). -/

namespace Sys2Proof.Machine

/-- Bytes of a chunk's body in its phase (R168). -/
def chunkBytes (f : Fmt) (n : Nat) : Nat := n * wireUnit f

/-- Formats a phase allows in a context (R169, R187): a running format in phases 0 and 1; RFMT in phases 2 and 3, where a row of a T16 group
of more than 4,096 members may have become X48 (R177). -/
def phaseFmt (b : BitVec 768) (phase : Nat) (f : Fmt) : Bool :=
  if phase < 2 then f.isRun
  else match Fmt.ofCode (Tb.rfmt b) with
    | some g => decide (f = g) || (decide (g = .t16) && decide (f = .x48) && decide (4096 < Tb.msize b))
    | none => false
/-- The same where no context names RFMT: a format that some context could have. -/
def anyPhaseFmt (phase : Nat) (f : Fmt) : Bool := f.isRun || (decide (2 ≤ phase) && (f == .fp32 || f == .bf16 || f.isLedger))

/-- A malformed header (R169): the chunk is discarded and counted, K1 hears of it, the manager gets a STALL. -/
def Part.chunkBad (s : Part) (w : Nat) (self : FabId) (h : BitVec 128) (rank : Nat) : Part :=
  let s := s.onWs w fun y => { y with tetherBad := satAdd y.tetherBad 1 }
  (s.report (BitVec.ofNat 8 w) 0 3).tellManager self (Ch.group h) 0x10 (BitVec.ofNat 16 (Ch.seq h)) (Ch.chunk h) rank 4

/-- The open context of a bank that serves a group. -/
def Part.ctxFor (s : Part) (bank group : Nat) : Option (Nat × Ctx) :=
  (if bank = 0 then s.ctxs else s.twinCtxs).find? fun k => decide (Tb.group k.2.blk = group) && !k.2.opening

/-- What the header shows of a chunk that the context takes in (R168, R169, R185, R261). -/
def chunkWelcome (x : Ctx) (h : BitVec 128) (f : Fmt) : Bool :=
  !Ch.reservedSet h && phaseFmt x.blk (Ch.phase h) f && decide (Ch.nunits h = Tb.unitsOf x.blk (Ch.chunk h))
    && decide (Ch.chunk h < Tb.chunks x.blk) && decide (Ch.seq h = Tb.seq x.blk) && decide ((x.chunk (Ch.chunk h)).replay ≠ .prepped)

/-- A chunk enters an open context (R173, R183, R185, R188): with the buffer its flit 0 asked for, or it asks for one. A CHUNK beyond the tensor, a
NUNITS_C other than the chunk's count and a body of another length count as a malformed header too, where R169 names reserved fields and FMT alone
(DESIGN CHOICE, log entry 50). -/
def Part.chunkEnter (s : Part) (bank : Nat) (k : Nat × Ctx) (m : ChunkMsg) (err : ChunkErr) (pre : Option Nat) : Part :=
  let h := m.hdr
  let x := k.2
  let n := Ch.chunk h
  let w := Tb.hopWs x.blk
  match Fmt.ofCode (Ch.fmt h) with
  | none => (s.release pre).chunkBad w m.dst h (Tb.rank x.blk)
  | some f =>
    if err = .header || Ch.reservedSet h || !phaseFmt x.blk (Ch.phase h) f then (s.release pre).chunkBad w m.dst h (Tb.rank x.blk)
    else if Ch.seq h ≠ Tb.seq x.blk then (s.release pre).tetherLate w x n (Ch.seq h)
    else if Ch.nunits h ≠ Tb.unitsOf x.blk n || m.body.length ≠ chunkBytes f (Ch.nunits h) || Tb.chunks x.blk ≤ n then
      (s.release pre).chunkBad w m.dst h (Tb.rank x.blk)
    else if (x.chunk n).replay = .prepped then
      (s.release pre).onWs w fun y => { y with replayDiscard := satAdd y.replayDiscard 1 }
    else
      let us := struckUnits err (readUnits f.width 128 (Ch.nunits h) m.body)
      let wrong (u : LUnit) : Bool := u.led.malformed f (some x.se.cls.toNat)
      let s := s.ledgerErr (us.filter wrong).length
      let us := us.map fun u => if wrong u then { u with led := { u.led with poison := true } } else u
      let at0 := match s.findAsm m.lg.val m.src m.msgid with | some a => a.first | none => s.now
      let r := s.useBuf pre 72 (64 + w) (x.chunkCredits (Ch.phase h) f)
      let row : RowSet := ⟨Ch.boundExt h, Ch.startTaken h, Ch.hops h, f, us, some r.1, at0⟩
      let s := (r.2.onCtx bank k.1 fun y => { y with ins := y.ins ++ [⟨if s.answers m.src then 8 else m.lg.val, h, row, r.1⟩] }).wake (wsDom w)
      let s := if bank = 0 then s.mirror (.chunkReceived (Fin.ofNat 64 k.1) n (Ch.phase h)) else s
      if s.granted r.1 then s.runCtx bank k.1 else s

/-- A whole, accepted chunk. A malformed one for which no context is open names no Waystation: it is counted at Waystation 0 and reported for it (R169;
DESIGN CHOICE, log entry 50). With no context open it is a stall (R259, R282), or K1 opens one in the Harbour (R308), for which the
chunk waits while K1 is down (R302). -/
def Part.chunkAccept (s : Part) (m : ChunkMsg) (err : ChunkErr) (pre : Option Nat) : Part :=
  let bank := if m.dst = s.ownId then 0 else 1
  let g := Ch.group m.hdr
  match s.ctxFor bank g with
  | some k => s.chunkEnter bank k m err pre
  | none =>
    let s := s.release pre
    let rank := match s.group g with | some x => (x.img.rankOf m.dst).getD 0 | none => 0
    if err = .header || Ch.reservedSet m.hdr || !((Fmt.ofCode (Ch.fmt m.hdr)).map (anyPhaseFmt (Ch.phase m.hdr))).getD false then s.chunkBad 0 m.dst m.hdr rank
    else
      if s.mb.parked && decide (bank = 0) && !s.mb.runs 1 then s.onMb fun b => { b with harbourq := b.harbourq ++ [(m, err)] } else
      let s' := if s.mb.parked && decide (bank = 0) then s.harbourOpen g (Ch.seq m.hdr) else s
      match s'.ctxFor bank g with
      | some k => s'.chunkEnter bank k m err none
      | none =>
        let seq := BitVec.ofNat 16 (Ch.seq m.hdr)
        let s := s.tellManager m.dst g 0x10 seq (Ch.chunk m.hdr) rank 5
        match s.group g with
        | some x => if x.closedSeq.isSome then s.tellManager m.dst g 0x22 seq 0 rank 3 else s
        | none => s

/-- A chunk row: what the check of R218 made of its message decides. -/
def Part.takeChunk (s : Part) (m : ChunkMsg) (err : ChunkErr) (lerr : LarderErr) : Part :=
  let fate := s.fateOf m.lg.val m.src m.msgid
  let s := s.larderErr lerr
  let out (s : Part) : Part := s.dropAsm m.lg.val m.src m.msgid
  match fate with
  | .quarantined => out s
  | .held =>
    match s.findHeld m.src m.msgid with
    | some h => out (s.setHeld { h with chunk := some m })
    | none => out s
  | .accepted =>
    if s.answers m.dst then
      let pre := (s.findAsm m.lg.val m.src m.msgid).bind fun a => a.buf
      ((s.onAsm m.lg.val m.src m.msgid fun a => { a with buf := none }).chunkAccept m err pre |> out).creditsFree
    else out s

/-- A chunk of the part to itself (R194 step 1): its role epoch is checked like any other's (R216, R218), then it enters its context. -/
def Part.takeLoop (s : Part) (m : ChunkMsg) : Part :=
  let r := s.roleOf m.dst
  let h := match mkFlits .tether 2 m.dst m.src r m.msgid (toBytes 16 m.hdr.toNat ++ m.body) with | f :: _ => f.header 0 0 0 0 | [] => 0
  match s.fateNow r m.dst with
  | (.accepted, _) => s.chunkAccept m .clean none
  | (.held, _) =>
    s.hold { lg := m.lg, src := m.src, msgid := m.msgid, since := s.now, repoch := r, dst := m.dst, msg := none, chunk := some m,
             verdict := none, resend := none, xfer := 0, hdr := h, last := s.now }
  | (.quarantined, st) => s.quarantine h m.src m.dst m.msgid r 0 st

/-- Chunks of the part to itself, in their order. -/
def Part.takeLoops : Nat → Part → Part
  | 0, s => s
  | n + 1, s =>
    match s.gh.loops with
    | [] => s
    | m :: rest => Part.takeLoops n ((s.onGh fun g => { g with loops := rest }).takeLoop m)

end Sys2Proof.Machine
end

