-- ==== Sys2Proof/Machine/Settle.lean ====
section
/-! DEFINITION. CVT and TETHER OPEN as they are presented (R235, R236, R250, R309), and the end of a command that may let others go on:
CONTROL messages go out, sequencers that wait for a place are taken in their order, open transfers go on (R141, R229, R230, R245). -/

namespace Sys2Proof.Machine

/-- CVT presents its copy (R235, R236): DPN accepts it, or the sequencer waits. A block word lost to a Larder error makes the copy fail
with code 0x01 (R284). -/
def Part.cvtAt (s : Part) (q : Nat) (w : W64) (ue : Bool) : Part :=
  let x := s.seq q
  let doff := fld w 18 15
  let dp := fld w 33 6
  if dp / 8 ≠ q then s.seqFault q 4
  else if doff % 2 ≠ 0 then s.seqFault q 3
  else match x.block doff 2 with
    | none => s.seqFault q 3
    | some n =>
      let d := BitVec.ofNat 128 n
      let d := setFld d 37 12 (Desc.tile d + (x.reg (IW.ga w)).toNat)
      let d := setFld d 49 16 (Desc.rowblk d + (x.reg (IW.gb w)).toNat)
      let d := setFld d 24 2 (Desc.slot d + (x.reg (IW.gc w)).toNat)
      let d := if ue then setFld d 117 11 1 else d
      if s.dpReady dp then (s.onSeq q Seq.advance).issue dp d (some (Fin.ofNat 9 q))
      else s.onSeq q fun y => y.park 0x08 0 (.cvt dp ue)

/-- The Tether block as TETHER OPEN reads it (R235). -/
def Tb.adjust (b : BitVec 768) (ga gb gc : W64) : BitVec 768 :=
  let b := setFld b 128 40 (Tb.ibase b + ga.toNat)
  let b := setFld b 512 47 (Tb.dest b + gb.toNat)
  setFld b 184 16 (Tb.seq b + gc.toNat)

/-- An open that fails (R250): the event, and the program goes on. -/
def Part.openFail (s : Part) (q c : Nat) (en : Bool) (ev reason : Nat) : Part :=
  (s.onSeq q Seq.advance).signalIf en q ev (evTether 1 c reason 0)

/-- TETHER OPEN at its sequencer (R250, R309). -/
def Part.tetherOpenAt (s : Part) (q : Nat) (w : W64) (ue : Bool) : Part :=
  let x := s.seq q
  let c := fld w 20 6
  let doff := fld w 26 15
  let ev := fld w 41 8
  let en := bitOf w 49
  if doff % 8 ≠ 0 then s.seqFault q 3
  else match x.block doff 12 with
    | none => s.seqFault q 3
    | some n =>
      let b := Tb.adjust (BitVec.ofNat 768 n) (x.reg (IW.ga w)) (x.reg (IW.gb w)) (x.reg (IW.gc w))
      match s.ctxOf 0 c with
      | some y =>
        if y.owner.isNone && y.role = .harbour && !y.opening then
          if Tb.group y.blk = Tb.group b && Tb.seq y.blk = Tb.seq b then
            (s.onSeq q Seq.advance).onCtx 0 c fun z => { z with owner := some (q, BitVec.ofNat 8 ev, en) }
          else s.onSeq q fun z => z.park 0x10 0 (.tetherBusy c ue)
        else s.openFail q c en ev 1
      | none =>
        let e := s.stream (Tb.stream b)
        let r := if signsPast e e.tiles then 2 else blockReason b ue
        if r = 2 || r = 3 then s.openFail q c en ev r
        else
          let y := { s.newCtx b .member (some (q, BitVec.ofNat 8 ev, en)) true with failReason := r, blk := b }
          (s.setCtx 0 c y).onSeq q fun z => z.park 0x10 0 (.tetherOpen c)

/-- A descriptor that its party holds is accepted: the core's before a program's (R41, R141). -/
def Part.takeOffer (s : Part) (n : Nat) : Part :=
  let os := (s.dp n).offers
  match (os.find? fun o => o.1.isNone).orElse fun _ => os.head? with
  | some o =>
    if s.dpReady n && !s.glob.fencedSelf then
      (s.onDp n fun p => { p with offers := p.offers.filter fun x => x.1 ≠ o.1 }).issue n o.2 o.1
    else s
  | none => s

/-- Held descriptors take the places that are free, ahead of the sequencers that wait at CVT (R141). -/
def Part.takeOffers (s : Part) : Part := s.each s.dps fun s p => s.each p.2.offers fun s _ => s.takeOffer p.1

/-- Sequencers that wait for a place try again, the lower-numbered first (R141, R245). -/
def Part.retestPlaces (s : Part) : Part :=
  s.each (List.range 9) fun s q =>
    let x := s.seq q
    match x.wait, x.word with
    | .cvt dp ue, some w => if s.dpReady dp then (s.cvtAt q w ue).mirrorSeq q else s
    | .xfer k ue, some w =>
      if (tabFind s.gh.xfers k).isNone then
        (s.openXfer q (if IW.opc w = 2 then .put else if IW.opc w = 3 then .get else .send) w ue).mirrorSeq q
      else s
    | .tetherBusy c ue, some w => if (s.ctxOf 0 c).isNone then (s.tetherOpenAt q w ue).mirrorSeq q else s
    | _, _ => s

/-- The end of a command whose effect may let others go on. -/
def Part.settle (s : Part) : Part := ((((s.takeLoops 1048576).flush 1048576).takeOffers.retestPlaces).pumpXfers.flush 1048576).finish

end Sys2Proof.Machine
end

