-- ==== Sys2Proof/Machine/Marks.lean ====
section
/-! DEFINITION. The step mark (R32, R96, R128, R133, R136, R138, R216, R218, R253, R274, R275, R279, R280, R307) and the Harbour (R308). -/

namespace Sys2Proof.Machine

/-! ### The boundary's rules -/

/-- The WIDE latch at a step mark (R136). The mode that decides is that of the message of the latest misfit verdict, whatever MODE
holds, since lodge mode and C10 fall back to either (R119, R149; DEDUCED, log entry 27). -/
def Env.wideMark (v : Env) (changed : List Nat) : Env :=
  let clear := v.wideClr || v.misfitFc || (match v.misfitEntry with | some i => changed.contains i | none => false)
  if v.wide && clear then { v with wide := false, misfitEntry := none, misfitFc := false, wideClr := false } else { v with wideClr := false }

/-- The SSU at a step mark (R96, R128, R133, R136): pending copies into force, every Envelope its step, WIDE latches. -/
def Ssu.mark (u : Ssu) : Ssu :=
  let keys := (u.envs.map Prod.fst ++ u.streams.map Prod.fst ++ u.streamsP.map Prod.fst).eraseDups
  let envs := keys.foldl (fun t n =>
    let v := tabGet t n Env.reset
    let k := (tabGet u.streamsP n .reset).envK.toNat + 1
    tabSet t n ((v.mark k).wideMark u.calChanged) .reset) u.envs
  { u with
    streams := u.streamsP
    signs := u.signsP
    cal := u.calChanged.foldl (fun t i => tabSet t i (tabGet u.calP i 0) 0) u.cal
    calChanged := []
    envs := envs }

/-- The partition set at a step mark (R32, R340). -/
def PartSet.ok (p : PartSet) : Bool :=
  decide (sumN p.floors ≤ 49152) && p.ceils.all (fun c => decide (c ≤ 49152)) && (p.floors.zip p.ceils).all fun x => decide (x.1 ≤ x.2)
/-- The pending set comes into force, or is rejected; what still waits is granted under the new owner map (R341). -/
def Larder.mark (l : Larder) : Larder :=
  if l.pendingSet = l.active then l
  else if l.pendingSet.ok then
    { l with active := l.pendingSet, queue := l.queue.map fun r => { r with part := l.pendingSet.owners.getD r.consumer 0 } }
  else { l with pendingSet := l.active, partReject := true }

/-- A held message is released (R218): what has come of it is carried out, the rest as it arrives. -/
def Part.releaseHeld (s : Part) (h : HeldMsg) : Part :=
  let s := (s.dropHeld h.src h.msgid).onAsm h.lg.val h.src h.msgid fun a => { a with fate := .accepted }
  let s := match h.chunk with | some m => s.chunkAccept m .clean none | none => s
  match h.msg with
  | some (t, m) =>
    let s := s.acceptMsg t m none h.last
    match h.verdict, s.findLanding h.src h.msgid with
    | some v, some l =>
      let s := s.verdictIn l v.1 h.last
      match h.resend, s.findLanding h.src h.msgid with
      | some r, some l => s.resendIn l r
      | _, _ => s
    | _, _ => s
  | none => s

/-- Held messages against the current epochs (R218): equal releases, an older REPOCH quarantines; the hold's own end prevails (R138). -/
def Part.retestHelds (s : Part) : Part :=
  s.each s.gh.helds fun s h =>
    let e := s.epochOf h.dst
    if s.ended h.since 1000000 then s.heldOut h 0x11
    else if h.repoch = e then s.releaseHeld h
    else if newer16 h.repoch e then s
    else s.heldOut h 0x10

/-- Role epochs written since the last step mark take effect (R216). -/
def Part.markEpochs (s : Part) : Part :=
  match s.gh.epochP with
  | none => s
  | some (o, t) => (s.onGh fun g => { g with epochOwn := o, epochTwin := t, epochP := none }).mirror (.ownEpoch o)

/-- A REDRAW brings a role epoch (R216, R274): it goes into the role table, and for an identity that this instance answers for it is the epoch
that its receivers check. -/
def Part.drawnEpoch (s : Part) (i : FabId) (e : W16) : Part :=
  let s := (s.onGh fun y => { y with roles := tabSet y.roles i.toNat e 0 }).mirror (.roleEntry i e)
  if i = s.ownId then (s.onGh fun y => { y with epochOwn := e }).mirror (.ownEpoch e)
  else if s.gh.twinValid && decide (i = s.gh.identTwin) then s.onGh fun y => { y with epochTwin := e }
  else s

/-- REDRAWs of this step (R274): the rank's identity, its DEAD bit, the role epoch, the Courier tree. -/
def Part.markRedraws (s : Part) (step : W32) : Part :=
  s.each s.groups fun s g =>
    let due := g.2.redraws.filter fun r => decide (r.1 = step)
    let s := s.onGroup g.1 fun x =>
      { x with
        redraws := x.redraws.filter fun r => r.1 ≠ step
        img := due.foldl (fun i r => i.setMember r.2.1 fun m => { m with ident := r.2.2.1, dead := false }) x.img
        recovery := x.recovery.filter fun r => !(due.any fun d => decide (d.2.1 = r.1)) }
    let s := s.each due fun s r =>
      let s := s.drawnEpoch r.2.2.1 r.2.2.2
      let old := (g.2.img.member r.2.1).ident
      if s.gh.twinValid && decide (old = s.gh.identTwin) then s.onGh fun y => { y with epochTwin := y.epochTwin + 1 } else s
    match due, s.group g.1 with
    | _ :: _, some x =>
      let s := s.mirrorGroup g.1
      (match x.rank with | some me => s.crRebind x.img me | none => s)
    | _, _ => s

/-- D returns to 0, recovery windows run on, closed SEQs are of the past (R279, R280, R282). -/
def Part.markGroups (s : Part) : Part :=
  s.each s.groups fun s g =>
    let late := g.2.recovery.filter fun r => decide (r.2 ≤ 1)
    let s := s.onGroup g.1 fun x =>
      { x with
        dropped := []
        closedSeq := none
        recovery := (x.recovery.filter fun r => decide (1 < r.2)).map fun r => (r.1, r.2 - 1) }
    let s := if g.2.dropped.isEmpty then s else s.mirrorManaged g.1
    if g.2.manager then s.each late fun s r => s.note 4 (BitVec.ofNat 16 g.1) (BitVec.ofNat 32 r.1) else s

/-- The progress of a context's chunks as the twin is told it (R18, R259). -/
def Ctx.progress (x : Ctx) (c : Fin 64) : List MirrorItem :=
  (x.chunks.map fun k =>
    (if k.2.held.isSome then [.chunkReceived c k.1 0] else []) ++ (if k.2.heldHall.isSome then [.chunkReceived c k.1 1] else [])
      ++ (if k.2.hopDone then [.chunkForwarded c k.1 0] else []) ++ (if k.2.hallDone then [.chunkForwarded c k.1 1] else [])
      ++ (if k.2.finished.isSome then [.chunkFinished c k.1] else []) ++ if k.2.forwarded then [.chunkForwarded c k.1 3] else []).flatten

/-- The schedule state of the instance as entries (R18, R275, R276), by the sections of an image. -/
def Part.image (s : Part) : List MirrorItem :=
  ((List.range 9).map fun q => .sequencerState (Fin.ofNat 9 q) (s.seq q).image)
    ++ (s.ctxs.map fun k => .context (Fin.ofNat 64 k.1) k.2.blk :: k.2.progress (Fin.ofNat 64 k.1)).flatten
    ++ (s.gh.xfers.map fun x => .transfer (BitVec.ofNat 8 x.1) x.2.blk x.2.done)
    ++ ((s.gh.outMsgs.filter fun o => o.2.expectsAck).map fun o => .unacked (BitVec.ofNat 16 o.1) o.2.xfer o.2.dst)
    ++ [.creditCounters s.larder.active.floors s.larder.active.ceils s.larder.active.owners s.larder.occ]
    ++ ((List.range 8).map fun g => .fabricCredits (Fin.ofNat 8 g) (s.lg g).credits)
    ++ (s.gh.roles.map fun r => .roleEntry (BitVec.ofNat 17 r.1) r.2)
    ++ (s.ssu.streams.map fun e => .streamEntry (Fin.ofNat 4096 e.1) e.2)
    ++ (s.ssu.envs.map fun e => .envelope (Fin.ofNat 4096 e.1) e.2.ring e.2.acc)
    ++ ((s.groups.filter fun g => g.2.rank.isSome && !g.2.ofTwin).map fun g =>
        [.membership g.2.img g.2.mgrId, .lastJseq g.2.img.group g.2.jseqLast]).flatten

/-- The snapshot image of a step (R276): 884,992 bytes under its MAGIC. -/
def Part.snapshot (s : Part) : Snapshot :=
  { magic := 0x574C5350, ident := s.ownId, step := s.glob.step, set := s.twin.activeSet, len := 884992, items := s.image }

/-- The words that drain an image to the twin (R275). -/
def Part.drainImage (s : Part) (x : Snapshot) : Part := s.each x.items fun s it => s.mirror (.snapshotPart x.step x.set it)

/-- The snapshot's flip (R275): the active set is frozen, and drains to the twin, and to checkpoint storage through Gatehouse NoC port 0. -/
def Part.markSnapshot (s : Part) : Part :=
  if s.twin.snapBusy then s.onTwin fun t => { t with snapLate := true }
  else
    let x := s.snapshot
    let s := s.onTwin fun t => { t with activeSet := !t.activeSet, snapBusy := true, snapOf := x.step, frozen := some x }
    let s := s.drainImage x
    if s.twin.ckpt = 0#64 then s else s.nocWrite 8 s.twin.ckpt.toNat x.bytes .snapshot

/-- The Envelopes of a failed twin step too while they are in service here (R130). -/
def Part.markTwinEnvs (s : Part) : Part :=
  s.onSsu fun u =>
    { u with twinEnvs := u.twinEnvs.map fun e => (e.1, e.2.mark ((tabGet s.twin.mirror.streams e.1 .reset).envK.toNat + 1)) }

/-- Envelopes are mirrored at every step mark (R130): those that stand, and those of before the mark that are empty now. -/
def Part.mirrorEnvs (s : Part) (before : Tab Env) : Part :=
  s.each ((before.map Prod.fst).filter fun n => (tabFind s.ssu.envs n).isNone) Part.mirrorEnv |>.each (s.ssu.envs.map Prod.fst) Part.mirrorEnv

/-! ### The Harbour (R229, R307, R308) -/

/-- STOP of one sequencer (R229). -/
def Seq.stop (x : Seq) : Seq := if x.st = 1#3 || x.st = 2#3 then { x with st := 5, wait := .none, waitOpc := 0, waitEv := 0 } else x

/-- STOP at a sequencer: what it read for its instruction returns to no one (R229). -/
def Part.stopSeq (s : Part) (q : Nat) : Part :=
  let s := if (s.seq q).st = 1#3 then s.worked (seqDom q) else s
  (s.onSeq q Seq.stop).dropReads (portOf q) fun u => match u with | .fetch q' _ => decide (q' = q) | _ => false

/-- K0's DROP with reason absent to the manager of each of its groups (R308). -/
def Part.harbourDrops (s : Part) : Part :=
  s.each s.groups fun s g =>
    match g.2.rank with
    | some r => if g.2.ofTwin then s else s.tellManager s.ownId g.1 0x22 0 0 r 1
    | none => s

/-- K1 enters the Harbour (R307, R308): sequencers stopped, PARKED, the note, DROP to every manager, which waits for K0 where it is down (R302), open
contexts act without a contribution but deliver. -/
def Part.enterHarbour (s : Part) (cut : Bool) : Part :=
  let s := s.each (List.range 9) fun s q => (s.stopSeq q).mirrorSeq q
  let s := s.onMb fun m => { m with st := 5, parked := true }
  let s := (s.note 10 0 s.glob.step).guest 1 1 0x0207 [s.glob.step, BitVec.ofNat 32 (b2n cut)]
  let s := if s.mb.runs 0 then s.harbourDrops else s.onMb fun m => { m with dropsLate := true }
  s.each s.ctxs fun s k =>
    (s.onCtx 0 k.1 fun x => if x.role = .member then { x with role := .harbour } else x).actAbsent 0 k.1

/-- Harbour entry waits while K1 is down (R302). -/
def Part.toHarbour (s : Part) (cut : Bool) : Part :=
  if s.mb.runs 1 then s.enterHarbour cut else s.onMb fun m => { m with harbourLate := some cut }

/-- The drain window has ended by `t` without a step mark (R307): the Harbour, with STEP_CUT. An entry that waits for K1 stands. -/
def Part.drainOver (s : Part) (t : Nat) : Part :=
  if s.mb.st = 4#4 && s.mb.harbourLate.isNone && decide (s.mb.drainAt + 1000000000 ≤ t) then s.toHarbour true else s

/-! ### Recognising a step mark (R138, R253) -/

/-- The instance recognises the next step mark. -/
def Part.stepMark (s : Part) : Part :=
  let t := s.markStamp
  let s := s.drainOver t
  let step := s.glob.step + 1
  let s := s.onGlob fun g => { g with step := step, stepTime := t, acted := some t }
  let before := s.ssu.envs
  let changed := s.ssu.streamsP.filter fun e => decide (s.stream e.1 ≠ e.2)
  let s := ((s.onSsu Ssu.mark).markTwinEnvs).wake .ssu
  let s := s.each changed fun s e => s.mirror (.streamEntry (Fin.ofNat 4096 e.1) e.2)
  let s := if s.larder.pendingSet = s.larder.active then s else (s.onLarder Larder.mark).mirrorCredits
  let s := s.markEpochs
  let s := (s.markRedraws step).markGroups
  let s := s.retestHelds
  let s := (s.markSnapshot).mirrorEnvs before
  let s := s.retestMarks
  if s.mb.st = 4#4 && s.mb.harbourLate.isNone then s.toHarbour false else s

end Sys2Proof.Machine
end

