-- ==== Sys2Proof/Machine/BootOps.lean ====
section
/-! DEFINITION. The later start-up steps (R320): lane bring-up (R325), joins (R326), READY. -/

namespace Sys2Proof.Machine

/-- PCS_ACTIVE high and INIT flits exchanged both ways (R203, R325). -/
def LaneGroup.inService (l : LaneGroup) : Bool := l.active && l.initRx && !l.linkq.contains .init && !l.down

/-- Lane groups set in LG_EN. -/
def Part.enabledLgs (s : Part) : List Nat := (List.range 8).filter fun g => bitOf s.gh.lgEn g

/-- Step 11 (R320). -/
def Part.bootReady (s : Part) : Part := (s.onPwr fun p => { p with bootStep := 11 }).onGlob fun g => { g with ready := true }

/-- Step 10 (R326): INSTALLED goes to the manager of every entry. -/
def Part.bootJoin (s : Part) : Part :=
  let t := s.now
  let s := s.onPwr fun p => { p with bootStep := 10, joins := p.joins.map fun j => (j.1, j.2.1, j.2.2.1, t) }
  let self := s.ownId
  (s.each s.pwr.joins fun s j => s.tell (.mk' j.2.1 0x32 { src := self, group := j.1, jseq := 0, seq := 0, chunk := 0, rank := 0 } 0)).joinsDone

/-- An enabled Courier that finds neither of its lane groups in service at the end of step 9 is disabled (R325). -/
def Part.courierOff (s : Part) : Part :=
  if s.courier.en && !(s.lg 0).inService && !(s.lg 1).inService then s.onCr fun c => { c with en := false } else s

/-- Step 9 ends when every enabled lane group is in service (R325); K0, which ends it, runs (R302, R327). -/
def Part.lanesDone (s : Part) : Part :=
  if s.pwr.bootStep = 9 && s.mb.runs 0 && s.enabledLgs.all (fun g => (s.lg g).inService) then s.courierOff.bootJoin else s

/-- Step 9 begins (R325). -/
def Part.bootLanes (s : Part) : Part :=
  let t := s.now
  let s := s.onPwr fun p => { p with bootStep := 9, laneAt := t }
  (s.each s.enabledLgs fun s g => s.emit (.wakeReq g)).lanesDone

/-- The window of step 9 has ended (R325): what is not in service is down; the Courier is disabled where it has no lane group. -/
def Part.lanesExpire (s : Part) : Part :=
  let late := s.enabledLgs.filter fun g => !(s.lg g).inService
  let s := s.each late fun s g => s.lgDown g
  let s := s.onPwr fun p => { p with laneFail := p.laneFail || !late.isEmpty }
  s.courierOff.bootJoin

/-- What arrives at or after the window's end finds step 9 over (R138, R325). -/
def Part.lanesDue (s : Part) : Part :=
  if s.pwr.bootStep = 9 && s.mb.runs 0 && s.ended s.pwr.laneAt s.pwr.laneTmo.toNat then s.lanesExpire else s

/-- The lane group that carries the Courier's virtual lane (R26, R56): lane group 0, and lane group 1 while lane group 0 has no lane. -/
def Part.courierLanes (s : Part) (g : Nat) : Bool := g == 0 || (g == 1 && decide ((s.lg 0).lanes = 0#4))

/-- An enabled Courier keeps its lane out of the low-power state, one that was asked for or entered (R26). -/
def Part.courierWakes (s : Part) : Part :=
  if !s.courier.en then s
  else s.each ((List.range 2).filter s.courierLanes) fun s g =>
    let s := s.onLg g fun l => { l with lpReq := false }
    if (s.lg g).lowPower then s.emit (.wakeReq g) else s

end Sys2Proof.Machine
end

