-- ==== Sys2Proof/Machine/TwinOps.lean ====
section
/-! DEFINITION. The twin block (R57, R58, R264 to R269, R285, R287): the mirror, loss, claim, takeover, the split and the way back. -/

namespace Sys2Proof.Machine

/-- WL_TWIN_STATUS (R287). -/
def Twin.status (t : Twin) : W32 :=
  BitVec.ofNat 32 (t.st.toNat + bitIf t.activeSet 4 + bitIf t.snapBusy 5 + bitIf t.mirrorBad 6 + bitIf t.snapLate 7)

/-- STATE changes, with the TWIN interrupt cause (R338). -/
def Part.twinState (s : Part) (st : Nat) : Part :=
  (s.onTwin fun t => { t with st := BitVec.ofNat 3 st }).onIrq fun i => { i with twin := true }

/-! ### The mirror -/

/-- What a mirrored change says (R18). -/
def Mirror.take (m : Mirror) (it : MirrorItem) : Mirror :=
  match it with
  | .context c b => { m with ctxs := tabInsert m.ctxs c.val b }
  | .contextGone c =>
    { m with
      ctxs := tabErase m.ctxs c.val
      received := m.received.filter fun x => x.1 ≠ c.val
      forwarded := m.forwarded.filter fun x => x.1 ≠ c.val
      finished := m.finished.filter fun x => x.1 ≠ c.val }
  | .chunkReceived c n p => { m with received := (c.val, n, p) :: m.received.filter fun x => x ≠ (c.val, n, p) }
  | .chunkForwarded c n p => { m with forwarded := (c.val, n, p) :: m.forwarded.filter fun x => x ≠ (c.val, n, p) }
  | .chunkFinished c n => { m with finished := (c.val, n) :: m.finished.filter fun x => x ≠ (c.val, n) }
  | .chunkRestarted c n =>
    { m with
      received := m.received.filter fun x => !(decide (x.1 = c.val) && decide (x.2.1 = n))
      forwarded := m.forwarded.filter fun x => !(decide (x.1 = c.val) && decide (x.2.1 = n))
      finished := m.finished.filter fun x => x ≠ (c.val, n) }
  | .ownEpoch e => { m with epoch := e }
  | .roleEntry i e => { m with roles := tabSet m.roles i.toNat e 0 }
  | .streamEntry n e => { m with streams := tabSet m.streams n.val e .reset }
  | .envelope n r a => { m with envs := tabInsert m.envs n.val (r, a) }
  | .managed g d => { m with managed := tabInsert m.managed g.group.toNat (g, d) }
  | .membership g i => { m with members := tabInsert m.members g.group.toNat (g, i) }
  | .membershipGone g =>
    { m with
      members := tabErase m.members g.toNat
      jseqs := tabErase m.jseqs g.toNat
      managed := tabErase m.managed g.toNat
      journals := tabErase m.journals g.toNat }
  | .journal g e =>
    let old := tabGet m.journals g.toNat []
    let new := if old.any fun x => decide (x.jseq = e.jseq) then old.map fun x => if x.jseq = e.jseq then e else x
      else (old ++ [e]).drop (old.length + 1 - 4096)
    { m with journals := tabInsert m.journals g.toNat new }
  | .unacked i x d => { m with unacked := tabInsert m.unacked i.toNat (x, d) }
  | .acked i => { m with unacked := tabErase m.unacked i.toNat }
  | .lastJseq g j => { m with jseqs := tabInsert m.jseqs g.toNat j }
  | .transfer n b d => { m with xfers := tabInsert m.xfers n.toNat (b, d) }
  | .transferGone n => { m with xfers := tabErase m.xfers n.toNat }
  | .creditCounters f c o n => { m with credits := some (f, c, o, n) }
  | .fabricCredits g c => { m with fabric := tabInsert m.fabric g.val c }
  | .sequencerState q x => { m with seqs := tabInsert m.seqs q.val x }
  | .snapshotPart step set it =>
    match m.snapNew with
    | some x =>
      if x.step = step then { m with snapNew := some { x with items := it :: x.items } }
      else { m with snapLast := m.snapNew, snapNew := some ⟨step, set, [it]⟩ }
    | none => { m with snapNew := some ⟨step, set, [it]⟩ }
  | .nothing => m
  | .resyncPart => m
  | .journalAccepted _ _ => m

/-- A mirrored change enters the mirror; the entry that it writes anew is good again (R285). -/
def Mirror.apply (m : Mirror) (it : MirrorItem) : Mirror := { m.take it with bad := m.bad.filter fun e => it.entry ≠ some e }

/-- A word accepted in sequence reaches the mirror logic (R57): the mirror while it is not frozen (R264), and a journal entry's
acceptance goes back (R271). -/
def Part.takeWord (s : Part) (it : MirrorItem) : Part :=
  if s.twin.st = 0#3 || s.twin.st = 5#3 then
    let s := s.onTwin fun t => { t with mirror := t.mirror.apply it }
    match it with
    | .journal g e => s.mirror (.journalAccepted g e.jseq)
    | .journalAccepted g j =>
      match s.group g.toNat with
      | some x => if x.unaccepted.contains j then s.sendOrder g.toNat j else s
      | none => s
    | _ => s
  else s

/-- An uncorrectable error in the mirror store (R285): MIRROR_BAD, and the entry is requested again from the twin. -/
def Part.mirrorUe (s : Part) (ue : Option MirrorEntry) : Part :=
  match ue with
  | none => s
  | some e =>
    (s.onTwin fun t => { t with mirrorBad := true, mirror := { t.mirror with bad := e :: t.mirror.bad.filter fun x => x ≠ e } }).emit (.twinAsk e)

/-- All that the mirror must hold goes out again (R269): the last snapshot, then the live state. -/
def Part.mirrorAll (s : Part) : Part :=
  let s := match s.twin.frozen with | some x => s.drainImage x | none => s
  let s := s.mirror (.ownEpoch s.gh.epochOwn)
  let s := s.each s.image Part.mirror
  s.each (s.groups.filter fun g => g.2.manager && !g.2.ofTwin) fun s g =>
    (s.mirror (.managed g.2.img g.2.dropped)).each g.2.journal fun s e => s.mirror (.journal g.2.img.group e)

/-! ### Loss and split (R264, R269) -/

/-- The split state (R269): no more mirroring, SPLIT to the managers and to the runtime, managers without a shadow. -/
def Part.enterSplit (s : Part) : Part :=
  let s := s.twinState 4
  let s := s.each (s.groups.filter fun g => g.2.rank.isSome && !g.2.ofTwin) fun s g => s.emit (.splitReport g.2.mgrId g.2.img.group)
  ((s.note 7 (BitVec.ofNat 16 s.twinId.toNat) s.twin.status).guest 0 2 0x0504 [0]).releaseOrders

/-- Twin loss (R58, R264): the mirror freezes, K0's domain wakes (R313), a PROBE goes out, the probe window opens. While the pair resynchronises no claim follows
(R269). -/
def Part.twinLost (s : Part) : Part :=
  let t := s.now
  let resync := decide (s.twin.st = 5#3)
  let s := ((s.wake .fwc).twinState 1).onTwin fun x => { x with lossTime := t, winAt := t, lostTold := false, unsynced := resync }
  s.tell (.mk' s.twinId 1 { src := s.ownId, group := 0, jseq := 0, seq := 0, chunk := 0, rank := 0 } 0)

/-- 4 µs without a valid word while the pair is in step or comes back to it (R58, R264). -/
def Part.twinSilent (s : Part) : Bool := (s.twin.st = 0#3 || s.twin.st = 5#3) && s.ended s.twin.lastRx 4000

/-! ### Takeover (R37, R259, R263, R265, R268, R272, R285) -/

/-- What the twin had done with a chunk before it failed (R263): the hop of the rack stage, of the hall stage too, or all. -/
def Ctx.progressed (x : Ctx) (n phase : Nat) : Ctx :=
  x.onChunk n fun k =>
    { k with
      hopDone := true
      hallDone := k.hallDone || decide (1 ≤ phase)
      forwarded := k.forwarded || decide (2 ≤ phase)
      delivered := k.delivered || decide (2 ≤ phase)
      counted := k.counted || decide (2 ≤ phase) }

/-- A mirrored context enters the twin bank with its progress and its stream's entry, or is dropped with its rank where its entry was lost (R285). -/
def Part.adoptCtx (s : Part) (c : Nat) (b : BitVec 768) : Part :=
  if s.twin.mirror.bad.contains (.context (Fin.ofNat 64 c)) then s.tellManager s.ownId (Tb.group b) 0x20 0 0 (Tb.rank b) 0
  else
    let m := s.twin.mirror
    let x := { s.newCtx b .twin none false with blk := b, exp0 := Tb.exp0 b, se := tabGet m.streams (Tb.stream b) .reset }
    s.setCtx 1 c ((m.finished.filter fun k => decide (k.1 = c)).foldl (fun x k => x.progressed k.2 1)
      ((m.forwarded.filter fun k => decide (k.1 = c)).foldl (fun x k => x.progressed k.2.1 k.2.2) x))

/-- The replays that a journal shows under way (R260, R272), by chunk: PREP sent, its answers in, ARM sent, ARM answered; GO ends one. -/
def replaysOf (js : List JEntry) (live : List Nat) (t : Nat) : Tab MgrReplay :=
  js.foldl (fun r e =>
    let c := e.chunk.toNat
    let x (phase : Nat) (arm : List Nat) : MgrReplay :=
      { phase := phase, seq := BitVec.ofNat 16 (fld e.data 0 16), jseq := e.jseq, prepAcks := [], armAcks := arm, lastAck := t, since := t }
    if e.kind = 0x11#8 then tabInsert r c (x (if e.done then 1 else 0) [])
    else if e.kind = 0x13#8 then tabInsert r c (x 2 (if e.done then live else []))
    else if e.kind = 0x15#8 then tabErase r c
    else if e.kind = 0x17#8 then r.filter fun k => k.2.seq ≠ BitVec.ofNat 16 (fld e.data 0 16)
    else if e.kind = 0x23#8 then [] else r) []

/-- The spare draws that a journal shows under way, and the recovery windows that still run at a step (R274, R280). -/
def drawsOf (js : List JEntry) : List (Nat × FabId) :=
  js.filterMap fun e => if e.kind = 0x30#8 && !e.done then some (e.rank.toNat, BitVec.ofNat 17 (fld e.data 16 17)) else none
/-- The REDRAWs of a journal whose step mark is still to come (R274), which are done when sent. -/
def redrawsOf (js : List JEntry) (step : W32) : List (W32 × Nat × FabId × W16) :=
  js.filterMap fun e =>
    let at' : W32 := BitVec.ofNat 32 (fld e.data 64 32)
    if e.kind = 0x33#8 && newerJseq at' step then some (at', e.rank.toNat, BitVec.ofNat 17 (fld e.data 16 17), BitVec.ofNat 16 (fld e.data 48 16)) else none
def windowsOf (js : List JEntry) (step : W32) : List (Nat × Nat) :=
  (js.filterMap fun e =>
    let d := (step - e.step).toNat
    if (e.kind = 0x30#8 || e.kind = 0x21#8) && decide (d < 2) then some (e.rank.toNat, 2 - d) else none).foldl
      (fun a r => if a.any fun x => decide (x.1 = r.1) then a else a ++ [r]) []

/-- Managers resume (R37, R272): up to 8 groups in all by ascending number, the others frozen with the note REFORM. -/
def Part.adoptManaged (s : Part) (n : Nat) (img : GroupImage) (dropped : List Nat) : Part :=
  let j := tabGet s.twin.mirror.journals n []
  let next := (j.foldl (fun a e => max a e.jseq.toNat) 0) + 1
  let g := match s.group n with
    | some g => g
    | none => { Group.new img 64 false none false s.twinId with ofTwin := true }
  let full := s.managedFull
  let g : Group :=
    { g with
      manager := true
      frozen := full
      img := img
      dropped := dropped
      journal := j
      nextJseq := BitVec.ofNat 32 next
      replays := replaysOf j img.live s.now
      drawing := drawsOf j
      redraws := if g.rank.isSome then g.redraws else redrawsOf j s.glob.step
      recovery := windowsOf j s.glob.step
      mgrId := s.twinId }
  let s : Part := { s with groups := tabInsert s.groups n g }
  if full then s.note 6 (BitVec.ofNat 16 n) 1
  else (s.each (j.filter fun e => !e.done) fun s e => s.sendOrder n e.jseq).replayStep n

/-- Chunks that the failed twin had received in some phase, and neither forwarded in it or a later one nor finished, stall (R259), each once. -/
def Part.adoptStalls (s : Part) : Part :=
  let m := s.twin.mirror
  let lost := (m.received.filter fun k =>
    !(m.forwarded.any fun f => decide (f.1 = k.1) && decide (f.2.1 = k.2.1) && decide (k.2.2 ≤ f.2.2)) && !m.finished.contains (k.1, k.2.1)).map fun k => (k.1, k.2.1)
  s.each lost.eraseDups fun s k =>
    match s.ctxOf 1 k.1 with
    | some x => s.tellManager s.gh.identTwin (Tb.group x.blk) 0x10 (BitVec.ofNat 16 (Tb.seq x.blk)) k.2 (Tb.rank x.blk) 1
    | none => s

/-- The twin's Envelopes come into service (R130, R265): as this instance's own of the same stream number where that has no history, so that forecasts,
observations, clears and step marks go on with them, else beside it for the failed instance's contexts (DEDUCED, log entry 32); empty where the mirror has lost one (R285). Another entry that the mirror has lost serves
as it was last mirrored: R285 names an outcome for contexts and Envelopes alone (DESIGN CHOICE, log entry 32). -/
def Part.adoptEnvs (s : Part) : Part :=
  let m := s.twin.mirror
  s.each m.envs fun s e =>
    let bad := m.bad.contains (.envelope (Fin.ofNat 4096 e.1))
    let ring := if bad then [] else e.2.1
    let st := ringStat ring
    let put (v : Env) : Env :=
      { v with ring := ring, acc := if bad then none else e.2.2, eHi := st.1, eLo := st.2, kEff := (tabGet m.streams e.1 .reset).envK.toNat + 1 }
    if (s.env e.1).ring.isEmpty && (s.env e.1).acc.isNone then s.onEnv e.1 put
    else s.onSsu fun u => { u with twinEnvs := tabInsert u.twinEnvs e.1 (put .reset) }

/-- The claim is settled (R265): the twin's identity is answered for and its mirrored state enters service. -/
def Part.twinService (s : Part) : Part :=
  let t := s.now
  let m := s.twin.mirror
  let s := (s.twinState 3).onTwin fun x =>
    { x with
      takeoverNs := BitVec.ofNat 32 (t - x.lastRx)
      xferEnds := m.xfers.map fun t => (t.1, 0x03#8)
      mirror := { x.mirror with unacked := [], xfers := [] } }
  let s := s.onGh fun g => { g with identTwin := s.twinId, twinValid := true, epochTwin := m.epoch }
  let s := s.adoptEnvs.adoptMembers
  let s := s.each m.ctxs fun s k => s.adoptCtx k.1 k.2
  let s := s.each m.managed fun s g => s.adoptManaged g.1 g.2.1 g.2.2
  let s := (s.reportTwin true).adoptStalls
  let s := s.each s.twinCtxs fun s k => s.actAbsent 1 k.1
  (s.releaseOrders).guest 0 1 0x0502 [s.twin.takeoverNs]

/-- Every active lane group has acknowledged or is down: the takeover proceeds (R265). -/
def Part.claimDone (s : Part) : Part :=
  if s.twin.st = 2#3 && (List.range 8).all (fun g => let l := s.lg g; !l.active || l.down || l.claimAck) then s.twinService else s

/-- The claim goes out on every active lane group (R265). -/
def Part.claimTwin (s : Part) : Part :=
  let t := s.now
  let s := (s.twinState 2).onTwin fun x => { x with winAt := t }
  let s := s.each (List.range 8) fun s g =>
    let s := s.onLg g fun l => { l with claimAck := false }
    if (s.lg g).active then s.sendLink g (.claim 1 s.twinId) else s
  s.claimDone

/-- The claim window has ended (R265). -/
def Part.claimOver (s : Part) : Bool := s.twin.st = 2#3 && s.ended s.twin.winAt s.twin.claimTmo.toNat

/-- Its end: lane groups that have not acknowledged are down, and the takeover proceeds (R265). -/
def Part.claimExpire (s : Part) : Part :=
  let late := (List.range 8).filter fun g => (s.lg g).active && !(s.lg g).down && !(s.lg g).claimAck
  (s.each late fun s g => s.lgDown g).claimDone

/-- Own identity fenced (R266): everything stops until reset. -/
def Part.fenceSelf (s : Part) : Part :=
  let s := s.onGlob fun g => { g with fencedSelf := true }
  let s := s.each (List.range 9) fun s q => (s.stopSeq q).mirrorSeq q
  (s.onIrq fun i => { i with fatal := true }).guest 0 3 0x0503 [1]

end Sys2Proof.Machine
end

