-- ==== Sys2Proof/Machine/LinkOps.lean ====
section
/-! DEFINITION. The links as receivers (R54, R201 to R206, R216, R218, R265, R266): order and retry, credits, assembly of messages and the
role-epoch check, and what LINK flits ask for. -/

namespace Sys2Proof.Machine

/-! ### Resends (R202) -/

/-- Sequence numbers from `a` on. -/
def fromSeq (a b : BitVec 12) : Bool := decide ((b - a).toNat < 2048)

/-- Resend every flit from a number on: one more resend without LACK advancing, and at the eighth the lane group is down. -/
def Part.resendFrom (s : Part) (g : Nat) (a : BitVec 12) : Part :=
  let qs := ((s.lg g).replay.map Prod.fst).filter (fromSeq a)
  if qs.isEmpty then s
  else
    let s := s.onGh fun y => { y with retryCnt := satAdd y.retryCnt 1 }
    let s := (s.onLg g fun l => { l with again := qs, resends := l.resends + 1 }).pumpAll g
    if 8 ≤ (s.lg g).resends then s.lgDown g else s

/-- LACK covers flits (R202): they leave the replay store, and the count of resends starts again. -/
def Part.takeLack (s : Part) (g : Nat) (a : BitVec 12) : Part :=
  let t := s.now
  (s.onLg g fun l =>
    let rest := l.replay.filter fun r => !fromSeq r.1 a
    if rest.length = l.replay.length then l
    else { l with replay := rest, again := l.again.filter (fun q => !fromSeq q a), resends := 0, lackTime := t }).pumpAll g

/-- Fabric credits come back (R203). -/
def Part.takeCredits (s : Part) (g : Nat) (ns : List Nat) : Part :=
  ((s.onLg g fun l => { l with credits := l.credits.zipIdx.map fun (c, v) => c + ns.getD v 0 }).mirrorFabric g (s.lg g).credits).pumpAll g

/-! ### LINK flits (R204, R265, R266) -/

/-- INIT gives the far end's buffers (R203); the lane group carries traffic from then on, one that was down again (R286). -/
def Part.takeInit (s : Part) (g : Nat) (bufs : List Nat) : Part :=
  (((s.lanesDue.onLg g fun l => { l with initRx := true, down := false, credits := (List.range 6).map fun v => bufs.getD v 0 }).mirrorFabric g
    (s.lanesDue.lg g).credits).pumpAll g).lanesDone

/-- An identity has been heard on a link (R266). -/
def Part.hear (s : Part) (g : Nat) (i : FabId) : Part :=
  let t := s.now
  s.onLg g fun l => { l with heard := tabInsert l.heard i.toNat t }
/-- A flit from an identity was accepted within the last 4 µs. -/
def Part.heardLately (s : Part) (i : FabId) : Bool :=
  (List.range 8).any fun g => match tabFind (s.lg g).heard i.toNat with | some t => !s.ended t 4000 | none => false

/-- A CLAIM at a far end (R265, R266): refused while the identity is heard, else honoured on that link. -/
def Part.takeClaim (s : Part) (g : Nat) (cid : FabId) : Part :=
  if s.heardLately cid then s.sendLink g (.claim 3 cid)
  else (s.onLg g fun l => { l with honoured := if l.honoured.contains cid then l.honoured else cid :: l.honoured }).sendLink g (.claim 2 cid)

/-- CLAIM_ACK (R265). -/
def Part.takeClaimAck (s : Part) (g : Nat) (cid : FabId) : Part :=
  if s.twin.st = 2#3 && decide (cid = s.twinId) && !s.ended s.twin.winAt s.twin.claimTmo.toNat then
    (s.onLg g fun l => { l with claimAck := true }).claimDone
  else s

/-- CLAIM_REFUSED (R266): the claim is withdrawn on every lane group, the pair is split; at the end of the claim's window its end comes first (R138). -/
def Part.takeClaimRefused (s : Part) (cid : FabId) : Part :=
  if s.claimOver then s.claimExpire
  else if s.twin.st = 2#3 && decide (cid = s.twinId) then
    ((s.each (List.range 8) fun s g => s.onLg g fun l =>
      { l with claimAck := false, linkq := l.linkq.filter fun o => decide (o ≠ .claim 1 cid) }).enterSplit).guest 0 3 0x0503 [0]
  else s

/-- FENCED_ID (R266). -/
def Part.takeFencedId (s : Part) (cid : FabId) : Part := if cid = s.ownId then s.fenceSelf else s

/-- A flit of an identity whose claim was honoured, arriving on a link other than a claimant's (R266). -/
def Part.claimedElsewhere (s : Part) (g : Nat) (src : FabId) : Bool :=
  !(s.lg g).honoured.contains src && (List.range 8).any fun g' => (s.lg g').honoured.contains src

/-- A LINK flit as it arrives (R204, R266): INIT, credit returns, a retry request and claim fields, in that order. -/
def Part.takeLink (s : Part) (g : Nat) (h : BitVec 128) (payload : List Byte) : Part :=
  let p : BitVec 1920 := BitVec.ofNat 1920 (ofBytes payload)
  let kind := fld p 512 3
  let cid : FabId := BitVec.ofNat 17 (fld p 515 17)
  let fenced := s.claimedElsewhere g (Fh.src h)
  let bad := decide (fld p 3 5 ≠ 0) || decide (fld p 20 12 ≠ 0) || decide (fld p 224 288 ≠ 0) || decide (fld p 532 1388 ≠ 0)
    || decide (4 < kind) || Fh.reservedSet h || decide (Fh.vl h ≠ 0)
  if bad then s.onGh fun y => { y with badFlitCnt := satAdd y.badFlitCnt 1 }
  else if fenced then s.sendLink g (.claim 4 (Fh.src h))
  else
    let s := (s.hear g (Fh.src h)).takeLack g (Fh.lack h)
    let s := s.takeCredits g ((List.range 6).map fun v => if v = Fh.crvl h then Fh.cred h else 0)
    let s := if bitOf p 1 then s.takeInit g ((List.range 6).map fun v => fld p (32 + 16 * v) 16) else s
    let s := if bitOf p 2 then s.takeCredits g ((List.range 6).map fun v => fld p (128 + 16 * v) 16) else s
    let s := if bitOf p 0 then s.resendFrom g (BitVec.ofNat 12 (fld p 8 12)) else s
    match kind with
    | 1 => s.takeClaim g cid
    | 2 => s.takeClaimAck g cid
    | 3 => s.takeClaimRefused cid
    | 4 => s.takeFencedId cid
    | _ => s

/-! ### Assembly and role epochs (R199, R201, R206, R216, R218) -/

/-- Types whose messages may take more than one flit and are assembled. -/
def FType.long : FType → Bool
  | .send | .arrive | .put | .getreq | .getrsp | .tether | .resend | .control => true
  | _ => false

/-- The transfer number that a message's flit 0 bears, for a NACK; a chunk has none. -/
def flitXfer (t : FType) (payload : List Byte) : Nat := if t.hasHdr then Mh.xfer (BitVec.ofNat 256 (ofBytes (payload.take 32))) else 0

/-- The Larder buffer that an accepted message will need, asked for at its flit 0 (R28, R31, R203, R208, R209): its flits stay in the receive
buffer while the Larder makes it wait. A message that flit 0 shows to be malformed or refused asks for none. -/
def Part.asmReq (s : Part) (t : FType) (dst : FabId) (payload : List Byte) : Option Nat × Part :=
  let some' (r : Nat × Part) : Option Nat × Part := (some r.1, r.2)
  match t with
  | .send | .arrive | .put | .getrsp =>
    let h := BitVec.ofNat 256 (ofBytes (payload.take 32))
    if !hdrForm false h || (s.arrives t h && decide (Mh.lfmt h ≠ 2)) then (none, s)
    else if Mh.vreq h then some' (s.larderReq 72 72 ((Mh.body h + 1023) / 1024))
    else if s.arrives t h && !(s.dp (Mh.dpn h)).fenced then some' (s.larderReq 72 (Mh.dpn h) 32)
    else (none, s)
  | .tether =>
    let h := BitVec.ofNat 128 (ofBytes (payload.take 16))
    match s.ctxFor (if dst = s.ownId then 0 else 1) (Ch.group h), Fmt.ofCode (Ch.fmt h) with
    | some k, some f =>
      if chunkWelcome k.2 h f then some' (s.larderReq 72 (64 + Tb.hopWs k.2.blk) (k.2.chunkCredits (Ch.phase h) f)) else (none, s)
    | _, _ => (none, s)
  | _ => (none, s)

/-- Flit 0 of a message: the check of R218 on the types R198 marks. -/
def Part.firstFlit (s : Part) (g : Nat) (t : FType) (h : BitVec 128) (payload : List Byte) : Part :=
  let now := s.now
  let src := Fh.src h
  let id := Fh.msgid h
  let f := if t.checked then s.fateNow (Fh.repoch h) (Fh.dst h) else (.accepted, 0)
  let s := s.dropAsm g src id
  let r := if f.1 = .accepted then s.asmReq t (Fh.dst h) payload else (none, s)
  let a : RxAsm :=
    { src := src, msgid := id, ftype := t, vl := Fh.vl h, dst := Fh.dst h, repoch := Fh.repoch h, nextFidx := 1, complete := Fh.eom h,
      first := now, last := now, fate := f.1, hdr := h, bytes := payload, buf := r.1 }
  let s := r.2.onLg g fun l => { l with asms := l.asms ++ [a] }
  match f.1 with
  | .accepted => s
  | .held =>
    s.hold
      { lg := Fin.ofNat 8 g, src := src, msgid := id, since := now, repoch := Fh.repoch h, dst := Fh.dst h, msg := none, chunk := none,
        verdict := none, resend := none, xfer := BitVec.ofNat 8 (flitXfer t payload), hdr := h }
  | .quarantined =>
    s.quarantine h src (Fh.dst h) id (Fh.repoch h) (flitXfer t payload) f.2

/-- The message that a flit belongs to: a VERDICT names it in its payload (R210). -/
def msgOf (t : FType) (h : BitVec 128) (payload : List Byte) : W16 :=
  if t = .verdict then BitVec.ofNat 16 (ofBytes (payload.take 2)) else Fh.msgid h

/-- A later flit of a message. -/
def Part.laterFlit (s : Part) (g : Nat) (h : BitVec 128) (payload : List Byte) : Part :=
  let now := s.now
  s.onAsm g (Fh.src h) (Fh.msgid h) fun a =>
    { a with nextFidx := a.nextFidx + 1, complete := Fh.eom h, last := now, bytes := if a.fate = .quarantined then [] else a.bytes ++ payload }

/-- Kinds of R273. -/
def ctlKinds : List Nat := [0x01, 0x02, 0x10, 0x11, 0x12, 0x13, 0x14, 0x15, 0x16, 0x17, 0x20, 0x21, 0x22, 0x23, 0x30, 0x31, 0x32, 0x33]

/-- Flit 0 of a CONTROL message of no kind, or with its reserved byte set, is malformed (R201, R273). -/
def ctlMalformed (payload : List Byte) : Bool :=
  !ctlKinds.contains (ofBytes (payload.take 1)) || decide (ofBytes (slice payload 1 1) ≠ 0)

/-- The virtual lane of the message that a VERDICT or RESEND belongs to (R198), where it is known. -/
def Part.vlOf (s : Part) (g : Nat) (src : FabId) (msgid : W16) : Option Nat :=
  match s.findLanding src msgid with
  | some l => some (s.msgVl l.ftype l.hdr)
  | none =>
    match (s.findHeld src msgid).bind fun h => h.msg with
    | some (t, m) => some (s.msgVl t m.hdr)
    | none => (s.findAsm g src msgid).map fun a => a.vl

/-- An incomplete message whose window has ended is discarded (R206), whatever its next flit. -/
def Part.expireAsm (s : Part) (g : Nat) (src : FabId) (msgid : W16) : Part :=
  match s.findAsm g src msgid with
  | some a =>
    if !a.complete && s.ended a.last s.gh.msgTmo.toNat then
      ((s.dropAsm g src msgid).dropHeld src msgid).onGh fun y =>
        { y with msgDropCnt := if a.fate = .quarantined then y.msgDropCnt else satAdd y.msgDropCnt 1 }
    else s
  | none => s

/-- A GETRSP whose virtual lane is not that of its landing (R198): the open GET says how it lands. -/
def Part.rspVlBad (s : Part) (t : FType) (h : BitVec 128) (payload : List Byte) : Bool :=
  decide (t = .getrsp) && decide (Fh.fidx h = 0) &&
    match tabFind s.gh.xfers (flitXfer t payload) with
    | some x => decide (Fh.vl h ≠ if Xb.arr x.blk then 4 else 5)
    | none => false

/-- A sequenced flit accepted in order (R201): malformed ones are discarded and counted, those of an identity that another link has
claimed are fenced (R266), the others join their message. -/
def Part.takeFlit (s : Part) (g : Nat) (h : BitVec 128) (payload : List Byte) : Part :=
  let s := (s.takeLack g (Fh.lack h)).takeCredits g ((List.range 6).map fun v => if v = Fh.crvl h then Fh.cred h else 0)
  let src := Fh.src h
  let v := Fh.vl h
  let back (s : Part) : Part := if v < 6 then s.creditBack g v else s
  let badFlit (s : Part) : Part := back (s.onGh fun y => { y with badFlitCnt := satAdd y.badFlitCnt 1 })
  if s.claimedElsewhere g src then (back s).sendLink g (.claim 4 src)
  else
    let s := (s.hear g src).expireAsm g src (Fh.msgid h)
    match FType.ofCode (Fh.ftype h) with
    | none => badFlit s
    | some t =>
      let m := s.findAsm g src (Fh.msgid h)
      if Fh.reservedSet h || !t.vlOk v || decide (t = .link) || (decide (t = .courier) && crReservedSet payload)
          || (decide (t = .control) && decide (Fh.fidx h = 0) && ctlMalformed payload)
          || ((t == .verdict || t == .resend) && (match s.vlOf g src (msgOf t h payload) with | some w => decide (w ≠ v) | none => false)) then
        badFlit s
      else if s.rspVlBad t h payload || (decide (Fh.fidx h = 0) && (match m with | some a => !a.complete | none => false)) then badFlit s
      else if !t.long then (if Fh.fidx h = 0 then back s else badFlit s)
      else if Fh.fidx h = 0 then
        if !s.answers (Fh.dst h) then back s
        else back (s.firstFlit g t h payload)
      else match m with
        | some a =>
          if a.nextFidx = Fh.fidx h && !a.complete && a.ftype == t then back (s.laterFlit g h payload) else badFlit s
        | none => badFlit s

end Sys2Proof.Machine
end

