-- ==== Sys2Proof/Machine/ControlCommands.lean ====
section
/-! DEFINITION. CONTROL messages as they arrive (R260 to R264, R269, R273, R274, R277, R279, R326) and the manager's and member's windows
(R260, R272). -/

namespace Sys2Proof.Machine

/-- A CONTROL message of a kind with its common fields reaches K0, or its queue (R291). -/
def Part.ctl (s : Part) (kind : Nat) (c : Ctrl) (ext : Nat) : Part := (s.control' (.mk' s.ownId kind c ext)).settle

/-- PROBE (R264): answered at once, whether or not K0 is up (R302). -/
def doProbe (src : FabId) (s : Part) : Part :=
  (s.tell (.mk' src 2 { src := s.ownId, group := 0, jseq := 0, seq := 0, chunk := 0, rank := 0 } 0)).settle
def execProbe (src : FabId) (s : State) : Result := s.run (doProbe src)

/-- PROBE_ANS (R264, R269): inside the probe window both dies are alive. -/
def doProbeAns (src : FabId) (s : Part) : Part :=
  if s.twin.st = 1#3 && decide (src = s.twinId) && !s.ended s.twin.winAt s.twin.probeTmo.toNat then
    ((s.guest 0 2 0x0501 [1]).enterSplit).settle
  else s.finish
def execProbeAns (src : FabId) (s : State) : Result := s.run (doProbeAns src)

/-- A message with a reserved value is malformed (R201, R273): discarded and counted. -/
def Part.ctlBad (s : Part) : Part := (s.onGh fun y => { y with badFlitCnt := satAdd y.badFlitCnt 1 }).settle

/-- STALL (R259, R260, R273). -/
def doStall (c : Ctrl) (cause : Byte) (s : Part) : Part := if cause = 0#8 || 7 < cause.toNat then s.ctlBad else s.ctl 0x10 c cause.toNat
def execStall (c : Ctrl) (cause : Byte) (s : State) : Result := s.run (doStall c cause)

/-- PREP (R260). -/
def doPrep (c : Ctrl) (s : Part) : Part := s.ctl 0x11 c 0
def execPrep (c : Ctrl) (s : State) : Result := s.run (doPrep c)

/-- PREP_ACK (R260). -/
def doPrepAck (c : Ctrl) (s : Part) : Part := s.ctl 0x12 c 0
def execPrepAck (c : Ctrl) (s : State) : Result := s.run (doPrepAck c)

/-- ARM (R260). -/
def doArm (c : Ctrl) (s : Part) : Part := s.ctl 0x13 c 0
def execArm (c : Ctrl) (s : State) : Result := s.run (doArm c)

/-- ARM_ACK (R260). -/
def doArmAck (c : Ctrl) (s : Part) : Part := s.ctl 0x14 c 0
def execArmAck (c : Ctrl) (s : State) : Result := s.run (doArmAck c)

/-- GO (R260). -/
def doGo (c : Ctrl) (s : Part) : Part := s.ctl 0x15 c 0
def execGo (c : Ctrl) (s : State) : Result := s.run (doGo c)

/-- DELIVERED (R189). -/
def doDelivered (c : Ctrl) (s : Part) : Part := s.ctl 0x16 c 0
def execDelivered (c : Ctrl) (s : State) : Result := s.run (doDelivered c)

/-- COMPLETE (R189). -/
def doComplete (c : Ctrl) (s : Part) : Part := s.ctl 0x17 c 0
def execComplete (c : Ctrl) (s : State) : Result := s.run (doComplete c)

/-- LOSS (R279). -/
def doLoss (c : Ctrl) (takeover : Bool) (s : Part) : Part := s.ctl 0x20 c (b2n takeover)
def execLoss (c : Ctrl) (takeover : Bool) (s : State) : Result := s.run (doLoss c takeover)

/-- SKIP (R262). -/
def doSkip (c : Ctrl) (s : Part) : Part := s.ctl 0x21 c 0
def execSkip (c : Ctrl) (s : State) : Result := s.run (doSkip c)

/-- DROP (R273, R279). -/
def doDrop (c : Ctrl) (reason : Byte) (s : Part) : Part := if reason = 0#8 || 3 < reason.toNat then s.ctlBad else s.ctl 0x22 c reason.toNat
def execDrop (c : Ctrl) (reason : Byte) (s : State) : Result := s.run (doDrop c reason)

/-- ABANDON (R279). -/
def doAbandon (c : Ctrl) (s : Part) : Part := s.ctl 0x23 c 0
def execAbandon (c : Ctrl) (s : State) : Result := s.run (doAbandon c)

/-- SPARE (R274, R326). -/
def doSpare (c : Ctrl) (img : GroupImage) (s : Part) : Part :=
  (s.control' { CtlMsg.mk' s.ownId 0x30 c 0 with img := some img }).settle
def execSpare (c : Ctrl) (img : GroupImage) (s : State) : Result := s.run (doSpare c img)

/-- SHADOW (R277): a piece that fails its CRC-32C is not installed. -/
def doShadow (c : Ctrl) (offset : W32) (data : List Byte) (crc : W32) (items : List MirrorItem) (s : Part) : Part :=
  if crc32c data = crc then (s.control' { CtlMsg.mk' s.ownId 0x31 c 0 with ext := offset.toNat, data := data, items := items }).settle else s.finish
def execShadow (c : Ctrl) (offset : W32) (data : List Byte) (crc : W32) (items : List MirrorItem) (s : State) : Result :=
  s.run (doShadow c offset data crc items)

/-- INSTALLED (R274, R326). -/
def doInstalled (c : Ctrl) (s : Part) : Part := s.ctl 0x32 c 0
def execInstalled (c : Ctrl) (s : State) : Result := s.run (doInstalled c)

/-- REDRAW (R274). -/
def doRedraw (c : Ctrl) (step : W32) (ident : FabId) (epoch : W16) (s : Part) : Part :=
  (s.control' { CtlMsg.mk' s.ownId 0x33 c 0 with step := step, ident := ident, epoch := epoch }).settle
def execRedraw (c : Ctrl) (step : W32) (ident : FabId) (epoch : W16) (s : State) : Result := s.run (doRedraw c step ident epoch)

/-! ### Windows of the manager and of the member -/

/-- A replay that the manager runs while its K0 is up (R302). -/
def Part.replayOf (s : Part) (group : W16) (chunk : W32) : Option (Group × MgrReplay) :=
  match s.group group.toNat with
  | some g => if g.manager && !g.frozen && s.mb.runs 0 then (tabFind g.replays chunk.toNat).map fun r => (g, r) else none
  | none => none

/-- REPLAY_QUIET_END (R260 step 3): 20 µs after the last PREP_ACK. -/
def doReplayQuietEnd (group : W16) (chunk : W32) (s : Part) : Part :=
  match s.replayOf group chunk with
  | some (_, r) =>
    if r.phase = 1 && s.ended r.lastAck 20000 then
      let t := s.now
      let s := s.onGroup group.toNat fun g => { g with replays := tabInsert g.replays chunk.toNat { r with phase := 2, since := t, armAcks := [] } }
      (s.order group.toNat 0x13 0 chunk.toNat r.seq.toNat).settle
    else s.finish
  | none => s.finish
def execReplayQuietEnd (group : W16) (chunk : W32) (s : State) : Result := s.run (doReplayQuietEnd group chunk)

/-- REPLAY_ANSWER_TIMEOUT (R260): no answer to PREP or ARM for 200 µs; the rank is lost. -/
def doReplayAnswerTimeout (group : W16) (chunk : W32) (rank : W16) (s : Part) : Part :=
  match s.replayOf group chunk with
  | some (g, r) =>
    let n := rank.toNat
    if r.owed n && g.img.live.contains n && s.ended r.since 200000 then (s.rankLost group.toNat n false none).settle else s.finish
  | none => s.finish
def execReplayAnswerTimeout (group : W16) (chunk : W32) (rank : W16) (s : State) : Result := s.run (doReplayAnswerTimeout group chunk rank)

/-- MANAGER_LOST (R272): 1 ms without an answer to a report. -/
def doManagerLost (group : W16) (s : Part) : Part :=
  if s.managerLate group s.now then (s.managerLost group).settle else s.finish
def execManagerLost (group : W16) (s : State) : Result := s.run (doManagerLost group)

end Sys2Proof.Machine
end

