-- ==== Sys2Proof/Machine/CourierCommands.lean ====
section
/-! DEFINITION. The commands of the Courier (R219 to R224, R283). -/

namespace Sys2Proof.Machine

def CourierRec.part (r : CourierRec) (rank : Nat) : CrPart :=
  { rank := rank, count := r.count.toNat, absent := r.absent, ovf := r.ovf, data := pad16 r.data }

/-- Operation `a` comes after operation `b`, numbers taken modulo 2^24; all 32 bits are compared, so that a number above 24 bits is none
(R223). -/
def crNewer (a b : W32) : Bool := decide (a.toNat < 2 ^ 24) && let d := (a.toNat + 2 ^ 24 - b.toNat % 2 ^ 24) % 2 ^ 24; decide (1 ≤ d) && decide (d < 2 ^ 23)

/-- An operation is in hand: issued, or begun by a child's flit. -/
def CrGroup.active (c : CrGroup) : Bool := c.busy || !c.parts.isEmpty || c.acc.isSome || decide (0 < c.level)

/-- A flit of another binding (R222). -/
def Part.crEpochDrop (s : Part) : Part := s.onCr fun c => { c with epochDropCnt := satAdd c.epochDropCnt 1 }
/-- An up flit after its leader has combined (R222). -/
def Part.crLate (s : Part) : Part := s.onCr fun c => { c with lateCnt := satAdd c.lateCnt 1 }

/-- An up flit joins its level, unless that level is combined or its window has ended (R222). -/
def Part.crJoin (s : Part) (r : CourierRec) : Part :=
  let g := r.cgrp.val
  let c := s.crg g
  match c.children.find? fun k => decide (k.2 = r.src) with
  | none => s
  | some k =>
    let l := crLevel c.rank.toNat k.1
    if l ≤ c.level then s.crLate
    else if s.crEnded c l then s.crLate
    else if c.parts.any fun p => decide (p.rank = k.1) then s
    else
      let t := s.now
      let s := s.onCrg g fun c =>
        { c with
          op := if c.busy then c.op else r.op
          len8 := if c.busy then c.len8 else r.len8
          cseq := r.cseq
          fresh := false
          parts := c.parts ++ [r.part k.1] }.openLevel l t
      s.crRun g

/-- COURIER_UP_FLIT (R222). -/
def doCourierUpFlit (r : CourierRec) (s : Part) : Part :=
  let c := s.crg r.cgrp.val
  if !s.courier.en then s.finish
  else if !c.bound || r.cepoch ≠ c.cepoch then s.crEpochDrop.finish
  else if r.cseq = c.cseq || (!c.active && decide (r.cseq.toNat < 2 ^ 24) && (c.fresh || crNewer r.cseq c.cseq)) then (s.crJoin r).settle
  else if crNewer r.cseq c.cseq then s.finish
  else s.crLate.finish
def execCourierUpFlit (r : CourierRec) (s : State) : Result := s.run (doCourierUpFlit r)

/-- COURIER_DOWN_FLIT (R222, R223): on to the children in rank order, and into the member's registers where it bears the operation that
comes next here. The result of an operation that the member has passed over ends its combination, and the member's own begins. -/
def doCourierDownFlit (r : CourierRec) (s : Part) : Part :=
  let g := r.cgrp.val
  let c := s.crg g
  if !s.courier.en then s.finish
  else if !c.bound || r.cepoch ≠ c.cepoch then s.crEpochDrop.finish
  else
    let p := r.part 0
    let s := s.each c.children fun s k => s.sendCrAs { c with op := r.op, len8 := r.len8, cseq := r.cseq } k.2 g 1 p
    let mineIs := match c.mine with | some m => decide (r.cseq = m.1) | none => false
    if c.mine.isSome && !mineIs then
      if r.cseq = c.cseq then
        let t := s.now
        let s := s.onCrg g fun c => ({ c.idle with mine := c.mine, prog := c.prog } : CrGroup).begin t
        (s.crRun g).settle
      else s.finish
    else if r.cseq = c.cseq || mineIs || (c.fresh && decide (r.cseq.toNat < 2 ^ 24)) then
      ((s.onCrg g fun c => { c with op := r.op, len8 := r.len8, cseq := r.cseq }).crDone g p).settle
    else s.finish
def execCourierDownFlit (r : CourierRec) (s : State) : Result := s.run (doCourierDownFlit r)

/-- COURIER_BUDGET_EXPIRY (R222): the lowest level not yet combined whose window has ended combines what has come. -/
def doCourierBudgetExpiry (g : Fin 16) (s : Part) : Part :=
  let c := s.crg g.val
  let due := (List.range 4).find? fun i =>
    decide (c.level ≤ i) && decide (i < c.leads) && s.crEnded c (i + 1)
  match due with
  | some i =>
    let t := s.now
    ((s.onCrg g.val fun c => c.combine (i + 1) t).crRun g.val).settle
  | none => s.finish
def execCourierBudgetExpiry (g : Fin 16) (s : State) : Result := s.run (doCourierBudgetExpiry g)

/-- An issue word (R225). -/
def Part.crIssueWord (s : Part) (g : Nat) (v : W32) : Part :=
  s.crIssue g (BitVec.ofNat 2 (fld v 0 2)) (BitVec.ofNat 3 (fld v 2 3)) (fld v 8 24) none

/-- COURIER_ISSUE (R223). -/
def doCourierIssue (g : Fin 16) (value : W32) (s : Part) : Part := (s.whenOpen fun s => s.crIssueWord g.val value).settle
def execCourierIssue (g : Fin 16) (value : W32) (s : State) : Result := s.run (doCourierIssue g value)

end Sys2Proof.Machine
end

