-- ==== Sys2Proof/Machine/DrainCommands.lean ====
section
/-! DEFINITION. The commands of drain ports and lodges (R41 to R49, R122 to R125, R135, R141 to R163, R349). -/

namespace Sys2Proof.Machine

/-- DRAIN_DESCRIPTOR_ISSUE (R41, R141): a descriptor transfers only while DD_READY is high; its party holds it until then. A party that
already holds one presents no other. -/
def doDrainDescriptorIssue (dp : Fin 64) (desc : BitVec 128) (src : Option (Fin 9)) (s : Part) : Part :=
  if (s.dp dp.val).offers.any (fun o => decide (o.1 = src)) then s.settle
  else if s.dpReady dp.val && !s.glob.fencedSelf then (s.issue dp.val desc src).settle
  else (s.onDp dp.val fun p => { p with offers := p.offers ++ [(src, desc)] }).settle
def execDrainDescriptorIssue (dp : Fin 64) (desc : BitVec 128) (src : Option (Fin 9)) (s : State) : Result := s.run (doDrainDescriptorIssue dp desc src)

/-- DRAIN_START (R349). -/
def doDrainStart (dp : Fin 64) (s : Part) : Part :=
  match (s.dp dp.val).exec with
  | none => s.finish
  | some j =>
    if j.canStart && !(s.dp dp.val).fenced && !s.glob.fencedSelf then
      let r := s.requestBuffers dp.val j
      (r.1.onDp dp.val fun p => { p with exec := some { r.2 with started := true } }).finish
    else s.finish
def execDrainStart (dp : Fin 64) (s : State) : Result := s.run (doDrainStart dp)

/-- ACC_ROW_ARRIVE (R42 to R44, R46, R98, R124, R154). A lodge whose window has ended closes first, and the row is discarded (R125). -/
def doAccRowArrive (dp : Fin 64) (row : List W32) (ue : Bool) (s : Part) : Part :=
  match (s.dp dp.val).exec with
  | none => s.settle
  | some j =>
    let s := match j.lodge with | some k => s.lodgeExpire k | none => s
    if (s.dp dp.val).exec ≠ some j || !s.rowReady dp.val j then s.settle
    else
      let s := s.rowError dp.val ue
      match j.mode, j.lodge, j.pair with
      | .lodge, some k, _ => (s.lodgeRow dp.val j k row ue).settle
      | _, _, .lead p => ((s.pairRow dp.val j row ue).pairStep dp.val p).settle
      | _, _, .partner l => ((s.pairRow dp.val j row ue).pairStep l dp.val).settle
      | _, _, _ =>
        let r := s.drainRow dp.val { j with rowsIn := j.rowsIn + 1 } row [] ue
        if r.2.row < r.2.rows then (r.1.setExec dp.val r.2).settle
        else ((r.1.slotBack dp.val r.2).tileDone dp.val r.2).settle
def execAccRowArrive (dp : Fin 64) (row : List W32) (ue : Bool) (s : State) : Result := s.run (doAccRowArrive dp row ue)

/-- VERDICT_TO_GATEHOUSE (R135, R210): with a RESEND, what the read of its retention copy met counts and strikes the unit it names (R284). -/
def doVerdictToGatehouse (msgid : VerdictIn) (s : Part) : Part :=
  let n := msgid.msgid.toNat
  match tabFind s.gh.outMsgs n with
  | none => s.settle
  | some o =>
    let s := if o.verdict = .awaited && o.misfit then
        (s.larderErr msgid.lerr).onGh fun g => { g with outMsgs := tabInsert g.outMsgs n { o with keep := struckUnits msgid.err o.keep } }
      else s
    (s.sendVerdict s.ownId msgid.msgid).settle
def execVerdictToGatehouse (msgid : VerdictIn) (s : State) : Result := s.run (doVerdictToGatehouse msgid)

/-- LODGE_CLOSE_DONE (R124): both passes, the rows written, the lodge buffer released. `bad` lists the errors of the
segments read back (R158, R284), by row. -/
def doLodgeCloseDone (lodge : Byte) (bad : List (Nat × LarderErr)) (s : Part) : Part :=
  let k := lodge.toNat
  match s.closeOf k with
  | none => s.settle
  | some (l, j) =>
    if l.pass ≠ 2 || !j.opndDue.isEmpty || !s.grantedOpt j.outBuf || !s.dpAwake l.owner || s.glob.fencedSelf then s.settle
    else
      let s := (s.larderUse l.req).larderUse j.outBuf
      let errs := bad.filter fun b => decide (b.1 < l.rows)
      let struck := (errs.filter fun b => b.2.isUe).map Prod.fst
      let s := s.each errs fun s b => s.larderErr b.2
      let rows := (List.range l.rows).map (l.closeRow j struck)
      let us := rows.map CloseRow.unit
      let s := s.each rows fun s u => s.feed l.stream u.vals
      let nb := struck.eraseDups.length
      let s := if nb = 0 then s else (s.onDp l.owner fun p => { p with errCnt := satAdd p.errCnt nb }).irqDpErr l.owner
      let s := (s.release l.req).onSsu fun u => { u with closing := u.closing.filter fun c => (c.2.job.map DrainJob.id) ≠ some j.id }
      let s := if l.timedOut then
          (s.onSsu fun u => { u with lodgeTmo := true, lodgeTmoCnt := satAdd u.lodgeTmoCnt 1 }).trace 2 0x0602
            [BitVec.ofNat 32 k, BitVec.ofNat 32 (l.tiles - l.done.length)]
        else s
      let poisoned := us.any fun u => u.led.poison
      let s := if Desc.dest j.desc = 1 then
          s.ghTakeTile j.desc 0 j.fmt (Desc.tfmt j.desc) (l.tiles - 1) l.rows us [] j.outBuf none 0 false false
        else s
      let w := s.closeWrites l j rows
      if w.2.nocDue = 0 then (w.1.drainEnd l.owner j.desc j.src (if poisoned then 2 else 0)).settle
      else (w.1.onDp l.owner fun p => { p with tail := p.tail ++ [{ w.2 with poisoned := poisoned }] }).settle
def execLodgeCloseDone (lodge : Byte) (bad : List (Nat × LarderErr)) (s : State) : Result := s.run (doLodgeCloseDone lodge bad)

/-- LODGE_TIMEOUT (R125): the window has ended with tiles missing. -/
def doLodgeTimeout (lodge : Byte) (s : Part) : Part :=
  let k := lodge.toNat
  let l := s.lodge k
  if l.phase = .opened && s.ended l.since s.ssu.tmo.toNat then (s.lodgeTimeOut k).settle
  else s.settle
def execLodgeTimeout (lodge : Byte) (s : State) : Result := s.run (doLodgeTimeout lodge)

/-- LODGE_LATE_WINDOW_END (R125). -/
def doLodgeLateWindowEnd (lodge : Byte) (s : Part) : Part :=
  let k := lodge.toNat
  if (s.lodge k).phase = .lateWindow && s.ended (s.lodge k).since s.ssu.tmo.toNat then (s.onLodge k fun _ => .reset).finish
  else s.finish
def execLodgeLateWindowEnd (lodge : Byte) (s : State) : Result := s.run (doLodgeLateWindowEnd lodge)

/-- LODGE_GRANT_TIMEOUT (R122): the request is withdrawn and LODGE_FB decides for the owner and for all who wait. -/
def doLodgeGrantTimeout (lodge : Byte) (s : Part) : Part :=
  let k := lodge.toNat
  let l := s.lodge k
  if l.phase = .opening && !s.grantedOpt l.req then
    let ws := s.lodgeWaiters k
    let s := (s.release l.req).onLodge k fun _ => .reset
    (s.each ws fun s w => s.lodgeFallback w.1 w.2).settle
  else s.settle
def execLodgeGrantTimeout (lodge : Byte) (s : State) : Result := s.run (doLodgeGrantTimeout lodge)

/-- PAIR_TIMEOUT (R154): 1 µs without the counterpart. -/
def doPairTimeout (dp : Fin 64) (s : Part) : Part :=
  let n := dp.val
  (s.each ((s.dp n).exec.toList ++ (s.dp n).pend.toList) fun s j => s.pairExpire n j).settle
def execPairTimeout (dp : Fin 64) (s : State) : Result := s.run (doPairTimeout dp)

/-- CORE_FAULT (R46, R161): a rise fences. -/
def doCoreFault (dp : Fin 64) (level : Bool) (s : Part) : Part :=
  let was := (s.dp dp.val).coreFault
  let s := s.onDp dp.val fun p => { p with coreFault := level }
  (if level && !was then s.fence dp.val else s).settle
def execCoreFault (dp : Fin 64) (level : Bool) (s : State) : Result := s.run (doCoreFault dp level)

/-- SOFTWARE_FENCE (R161). -/
def doSoftwareFence (dp : Fin 64) (s : Part) : Part :=
  (s.whenOpen fun s => (s.onDp dp.val fun p => { p with fenceBit := true }).fence dp.val).settle
def execSoftwareFence (dp : Fin 64) (s : State) : Result := s.run (doSoftwareFence dp)

/-- UNFENCE (R163). -/
def doUnfence (dp : Fin 64) (s : Part) : Part := (s.whenOpen fun s => s.unfence dp.val).settle
def execUnfence (dp : Fin 64) (s : State) : Result := s.run (doUnfence dp)

/-- OPS_ROW_TRANSFER (R47, R49): the next row of the tile in delivery, or the tile cut off on an uncorrectable Larder error. -/
def doOpsRowTransfer (dp : Fin 64) (err : LarderErr) (s : Part) : Part :=
  let n := dp.val
  match (s.dp n).ops with
  | [] => s.finish
  | o :: rest =>
    if !s.dpAwake n || s.glob.fencedSelf then s.finish
    else
      let s := (s.larderUse o.buf).larderErr err
      match err with
      | .uncorrectable _ =>
        let s := (s.emit (.opsAbort n)).release o.buf
        (((s.worked (quadOf n)).onDp n fun p => { p with ops := rest, abortCnt := satAdd p.abortCnt 1 }).report (BitVec.ofNat 8 n) 0 2).finish
      | _ =>
        let s := s.emit (.opsRow n o.tag o.tidx o.next (o.rows.getD o.next []))
        if o.next + 1 < o.rows.length then
          (s.onDp n fun p => { p with ops := { o with next := o.next + 1 } :: rest }).finish
        else (((s.worked (quadOf n)).release o.buf).onDp n fun p => { p with ops := rest }).finish
def execOpsRowTransfer (dp : Fin 64) (err : LarderErr) (s : State) : Result := s.run (doOpsRowTransfer dp err)

end Sys2Proof.Machine
end

