-- ==== Sys2Proof/Machine/Signature.lean ====
section
/-! DEFINITION. The two functions of public standards that R297 and R298 name: SHA-384 and the ECDSA check over P-384. The spec does not write
them out; they are those of FIPS 180-4 and FIPS 186 (PRESUMED, log entry 23). -/

namespace Sys2Proof.Machine

/-! ### SHA-384 (R297) -/

/-- The k-th root of v, rounded down, of at most `n` bits: each level of the recursion finds one more bit. -/
def rootFloor (k v : Nat) : Nat → Nat
  | 0 => 0
  | n + 1 =>
    let r := 2 * rootFloor k (v / 2 ^ k) n
    if (r + 1) ^ k ≤ v then r + 1 else r

/-- No number from 2 up divides v before the `fuel` numbers are through. -/
def noDivisor (v d : Nat) : Nat → Bool
  | 0 => true
  | fuel + 1 => decide (v < d * d) || (decide (v % d ≠ 0) && noDivisor v (d + 1) fuel)

/-- The first 80 primes: 2 to 409. -/
def shaPrimes : List Nat := ((List.range 410).drop 2).filter fun v => noDivisor v 2 20

/-- FIPS 180-4 takes its constants from primes: the first 64 bits behind the binary point of the k-th root. -/
def shaFraction (k v : Nat) : W64 := BitVec.ofNat 64 (rootFloor k (v * 2 ^ (64 * k)) 70)

/-- One constant a round, of the cube roots. -/
def shaRoundConsts : List W64 := shaPrimes.map (shaFraction 3)

/-- A hash in progress, as two sequences of which each new element follows from the last four: FIPS 180-4's words a to d are the last four of
`hi`, its words e to h the last four of `lo`, the newest first. -/
structure ShaRun where
  hi : List W64
  lo : List W64
  deriving DecidableEq, Repr

/-- SHA-384 starts from the square roots of the 9th to the 16th prime. -/
def ShaRun.start : ShaRun :=
  let ws := ((shaPrimes.drop 8).take 8).map (shaFraction 2)
  ⟨ws.take 4, ws.drop 4⟩

/-- The exclusive or of three right rotations, or of two and, where the third amount is a shift, that shift. -/
def turn3 (x : W64) (i j k : Nat) : W64 := x.rotateRight i ^^^ x.rotateRight j ^^^ x.rotateRight k
def turn2 (x : W64) (i j sh : Nat) : W64 := x.rotateRight i ^^^ x.rotateRight j ^^^ (x >>> sh)

/-- Bit by bit: the second where the first is 1, else the third; and what at least two of three hold. -/
def choose (x y z : W64) : W64 := z ^^^ (x &&& (y ^^^ z))
def majority (x y z : W64) : W64 := (x &&& (y ||| z)) ||| (y &&& z)

/-- One round with `kw`, the sum of its constant and its word of the message. -/
def ShaRun.next (r : ShaRun) (kw : W64) : ShaRun :=
  match r.hi, r.lo with
  | a1 :: a2 :: a3 :: a4 :: _, e1 :: e2 :: e3 :: e4 :: _ =>
    let t := kw + e4 + turn3 e1 14 18 41 + choose e1 e2 e3
    ⟨[t + turn3 a1 28 34 39 + majority a1 a2 a3, a1, a2, a3], [a4 + t, e1, e2, e3]⟩
  | _, _ => r

/-- The rounds of a block: `win` holds the sixteen words of the message's schedule that the coming rounds take, and each round appends one. -/
def ShaRun.rounds : List W64 → List W64 → ShaRun → ShaRun
  | k :: ks, w :: win, r =>
    let w' := w + turn2 (win.getD 0 0) 1 8 7 + win.getD 8 0 + turn2 (win.getD 13 0) 19 61 6
    ShaRun.rounds ks (win ++ [w']) (r.next (k + w))
  | _, _, r => r

/-- A big-endian number. -/
def ofBytesBe (bs : List Byte) : Nat := ofBytes bs.reverse
def toBytesBe (n v : Nat) : List Byte := (toBytes n v).reverse

/-- A message's blocks of 128 bytes, each taken as sixteen words; what a block's rounds leave is added to what stood before it. -/
def ShaRun.absorb (r : ShaRun) (block : List Byte) : ShaRun :=
  let q := ShaRun.rounds shaRoundConsts ((List.range 16).map fun i => BitVec.ofNat 64 (ofBytesBe (slice block (8 * i) 8))) r
  ⟨List.zipWith (· + ·) r.hi q.hi, List.zipWith (· + ·) r.lo q.lo⟩

/-- The padding of a message of n bytes: one bit, zeros, and the length in bits as 128 bits. -/
def shaPad (n : Nat) : List Byte := 0x80#8 :: (List.replicate ((239 - n % 128) % 128) 0#8 ++ toBytesBe 16 (8 * n))

/-- SHA-384: 48 bytes, of the first six of the eight words. -/
def sha384 (m : List Byte) : List Byte :=
  let p := m ++ shaPad m.length
  let r := (List.range (p.length / 128)).foldl (fun (r : ShaRun) i => r.absorb (slice p (128 * i) 128)) ShaRun.start
  ((r.hi ++ r.lo).take 6).flatMap fun w => toBytesBe 8 w.toNat

/-! ### ECDSA over P-384 (R298 step 5) -/

def p384p : Nat := 2 ^ 384 - 2 ^ 128 - 2 ^ 96 + 2 ^ 32 - 1
/-- The order of the base point. -/
def p384n : Nat := 0xffffffffffffffffffffffffffffffffffffffffffffffffc7634d81f4372ddf581a0db248b0a77aecec196accc52973
def p384b : Nat := 0xb3312fa7e23ee7e4988e056be3f82d19181d9c6efe8141120314088f5013875ac656398d8a2ed19d2a85c8edd3ec2aef
def p384gx : Nat := 0xaa87ca22be8b05378eb1c71ef320ad746e1d3b628ba79b9859f741e082542a385502f25dbf55296c3a545e3872760ab7
def p384gy : Nat := 0x3617de4a96262c6f5d9e98bf9292dc29f8f41dbd289a147ce9da3113b5f0b8c00a60b1ce1d7e819d7a431d7c90ea0e5f

/-- b^e mod m over the low `n` bits of e, the high bit first. -/
def powModBits (b e m : Nat) : Nat → Nat
  | 0 => 1
  | n + 1 =>
    let r := powModBits b (e / 2) m n
    r * r % m * (if e % 2 = 1 then b else 1) % m

/-- The inverse modulo a prime of 384 bits. -/
def invMod (a m : Nat) : Nat := powModBits (a % m) (m - 2) m 384

/-- a - b modulo the field's prime. -/
def subP (a b : Nat) : Nat := (a + (p384p - b % p384p)) % p384p
def mulP (a b : Nat) : Nat := a * b % p384p

/-- A point of the curve y² = x³ - 3x + b in Jacobian coordinates; z = 0 is the point at infinity. -/
structure EcPoint where
  x : Nat
  y : Nat
  z : Nat
  deriving DecidableEq, Repr

def EcPoint.zero : EcPoint := ⟨1, 1, 0⟩

def EcPoint.double (p : EcPoint) : EcPoint :=
  if p.z = 0 then p
  else
    let yy := mulP p.y p.y
    let s := mulP 4 (mulP p.x yy)
    let zz := mulP p.z p.z
    let m := mulP 3 (mulP (subP p.x zz) (p.x + zz))
    let x := subP (mulP m m) (2 * s)
    ⟨x, subP (mulP m (subP s x)) (8 * mulP yy yy), mulP (2 * p.y) p.z⟩

def EcPoint.add (p q : EcPoint) : EcPoint :=
  if p.z = 0 then q
  else if q.z = 0 then p
  else
    let zp := mulP p.z p.z
    let zq := mulP q.z q.z
    let u1 := mulP p.x zq
    let u2 := mulP q.x zp
    let s1 := mulP p.y (mulP q.z zq)
    let s2 := mulP q.y (mulP p.z zp)
    if u1 = u2 then (if s1 = s2 then p.double else .zero)
    else
      let h := subP u2 u1
      let r := subP s2 s1
      let hh := mulP h h
      let hhh := mulP h hh
      let v := mulP u1 hh
      let x := subP (subP (mulP r r) hhh) (2 * v)
      ⟨x, subP (mulP r (subP v x)) (mulP s1 hhh), mulP h (mulP p.z q.z)⟩

/-- k times a point over the low `n` bits of k. -/
def EcPoint.mulBits (p : EcPoint) (k : Nat) : Nat → EcPoint
  | 0 => .zero
  | n + 1 =>
    let r := (EcPoint.mulBits p (k / 2) n).double
    if k % 2 = 1 then r.add p else r

/-- The affine x. -/
def EcPoint.affineX (p : EcPoint) : Nat := let i := invMod p.z p384p; mulP p.x (mulP i i)

/-- A signature (r, s) over a digest under a public key (x, y), all numbers of 48 bytes, big-endian (R297). -/
def ecdsaValid (sig digest key : List Byte) : Bool :=
  let r := ofBytesBe (sig.take 48)
  let s := ofBytesBe (slice sig 48 48)
  let x := ofBytesBe (key.take 48)
  let y := ofBytesBe (slice key 48 48)
  if r = 0 || p384n ≤ r || s = 0 || p384n ≤ s || p384p ≤ x || p384p ≤ y || mulP y y ≠ (mulP x (mulP x x) + 3 * (p384p - x) + p384b) % p384p then false
  else
    let w := invMod s p384n
    let q := ((⟨p384gx, p384gy, 1⟩ : EcPoint).mulBits (ofBytesBe digest * w % p384n) 384).add ((⟨x, y, 1⟩ : EcPoint).mulBits (r * w % p384n) 384)
    decide (q.z ≠ 0) && decide (q.affineX % p384n = r)

end Sys2Proof.Machine
end

