-- ==== Sys2Proof/Machine/SeqCommands.lean ====
section
/-! DEFINITION. The instructions of the sequencers, one command each (R226, R230, R232 to R239, R242, R243, R250 to R255), and the
sequencer control bits (R228, R229). -/

namespace Sys2Proof.Machine

/-! ### Common forms -/

/-- Register fields that an instruction does not use hold 0 (R232). -/
def IW.noGa (w : W64) : Bool := zero w 6 4
def IW.noGb (w : W64) : Bool := zero w 10 4
def IW.noGc (w : W64) : Bool := zero w 14 4
def IW.noRegs (w : W64) : Bool := zero w 6 12
def IW.sub (w : W64) : Nat := fld w 18 3
def IW.target (w : W64) : Nat := fld w 21 15

/-- An instruction that writes one register from the part's state and goes on. -/
def Part.setG (s : Part) (q i : Nat) (v : W64) : Part := s.onSeq q fun x => (x.setReg i v).advance

/-- GB + sext(IMM), modulo 2^64 (R234, R235). -/
def Seq.immSum (x : Seq) (r : Nat) (w : W64) : W64 := x.reg r + BitVec.ofInt 64 (IW.imm w)

/-! ### FETCH (R234, R235) -/

/-- A FETCH of one MODE; the reserved modes 5 to 7 fault under every FETCH. -/
def Part.fetch (s : Part) (q mode : Nat) (reserved : W64 → Bool) (body : Part → W64 → Part) : Part :=
  s.instr q 0x01 (fun w => IW.sub w == mode || decide (5 ≤ IW.sub w)) (fun w => decide (5 ≤ IW.sub w) || !zero w 21 11 || reserved w) body

/-- FETCH LIT: GA ← sext(IMM). -/
def doFetchLit (q : Fin 9) (s : Part) : Part :=
  (s.fetch q.val 0 (fun w => !IW.noGb w || !IW.noGc w) fun s w => s.setG q.val (IW.ga w) (BitVec.ofInt 64 (IW.imm w))).finish
def execFetchLit (q : Fin 9) (s : State) : Result := s.run (doFetchLit q)

/-- FETCH ADD: GA ← GB + sext(IMM). -/
def doFetchAdd (q : Fin 9) (s : Part) : Part :=
  (s.fetch q.val 1 (fun w => !IW.noGc w) fun s w => s.setG q.val (IW.ga w) ((s.seq q.val).immSum (IW.gb w) w)).finish
def execFetchAdd (q : Fin 9) (s : State) : Result := s.run (doFetchAdd q)

/-- FETCH ADDG: GA ← GB + GC. -/
def doFetchAddg (q : Fin 9) (s : Part) : Part :=
  (s.fetch q.val 2 (fun _ => false) fun s w =>
    s.setG q.val (IW.ga w) ((s.seq q.val).reg (IW.gb w) + (s.seq q.val).reg (IW.gc w))).finish
def execFetchAddg (q : Fin 9) (s : State) : Result := s.run (doFetchAddg q)

/-- FETCH SPOOL: GA ← Spool word IMM[14:0]; a word at or beyond LEN faults with SPOOL (R255). -/
def doFetchSpool (q : Fin 9) (s : Part) : Part :=
  (s.fetch q.val 3 (fun w => !IW.noGb w || !IW.noGc w || !zero w 47 17) fun s w =>
    match (s.seq q.val).spool[fld w 32 15]? with
    | some v => s.setG q.val (IW.ga w) v
    | none => s.seqFault q.val 3).finish
def execFetchSpool (q : Fin 9) (s : State) : Result := s.run (doFetchSpool q)

/-- An offset that FETCH MEM and PUT WORD refuse with ALIGN (R235). -/
def badWordOff (a : W64) : Bool := decide (a.toNat % 8 ≠ 0) || decide (2 ^ 47 ≤ a.toNat)

/-- FETCH MEM: 8 bytes through the sequencer's NoC port, in the line that holds them (R50); the sequencer waits. -/
def doFetchMem (q : Fin 9) (s : Part) : Part :=
  (s.fetch q.val 4 (fun w => !IW.noGc w) fun s w =>
    let a := (s.seq q.val).immSum (IW.gb w) w
    if badWordOff a then s.seqFault q.val 6
    else (s.onSeq q.val fun x => x.park 0x01 0 (.fetch (IW.ga w))).nocRead (portOf q.val) (a.toNat / 64 * 64) 64 (.fetch q.val (a.toNat % 64))).finish
def execFetchMem (q : Fin 9) (s : State) : Result := s.run (doFetchMem q)

/-! ### PUT, GET, SEND (R234, R235, R244 to R248) -/

/-- PUT OPEN. -/
def doPutOpen (q : Fin 9) (err : LarderErr) (s : Part) : Part :=
  (s.instr q.val 0x02 (fun w => !bitOf w 18) (fun w => !zero w 34 30) fun s w => (s.larderErr err).openXfer q.val .put w err.isUe).settle
def execPutOpen (q : Fin 9) (err : LarderErr) (s : State) : Result := s.run (doPutOpen q err)

/-- PUT WORD: GB to die offset GA + sext(IMM), without waiting (R235). -/
def doPutWord (q : Fin 9) (s : Part) : Part :=
  (s.instr q.val 0x02 (fun w => bitOf w 18) (fun w => !IW.noGc w || !zero w 19 13) fun s w =>
    let x := s.seq q.val
    let a := x.immSum (IW.ga w) w
    if badWordOff a then s.seqFault q.val 6
    else (s.onSeq q.val fun x => { x.advance with stores := x.stores + 1 }).nocWrite (portOf q.val) a.toNat (toBytes 8 (x.reg (IW.gb w)).toNat) (.store q.val)).finish
def execPutWord (q : Fin 9) (s : State) : Result := s.run (doPutWord q)

/-- GET OPEN. -/
def doGetOpen (q : Fin 9) (err : LarderErr) (s : Part) : Part :=
  (s.instr q.val 0x03 (fun _ => true) (fun w => bitOf w 18 || !zero w 34 30) fun s w => (s.larderErr err).openXfer q.val .get w err.isUe).settle
def execGetOpen (q : Fin 9) (err : LarderErr) (s : State) : Result := s.run (doGetOpen q err)

/-- SEND OPEN. -/
def doSendOpen (q : Fin 9) (err : LarderErr) (s : Part) : Part :=
  (s.instr q.val 0x04 (fun _ => true) (fun w => bitOf w 18 || !zero w 34 30) fun s w => (s.larderErr err).openXfer q.val .send w err.isUe).settle
def execSendOpen (q : Fin 9) (err : LarderErr) (s : State) : Result := s.run (doSendOpen q err)

/-! ### CVT, STAT, SCALE (R236, R237) -/

/-- CVT. -/
def doCvt (q : Fin 9) (err : LarderErr) (s : Part) : Part :=
  (s.instr q.val 0x08 (fun _ => true) (fun w => !zero w 39 25) fun s w => (s.larderErr err).cvtAt q.val w err.isUe).settle
def execCvt (q : Fin 9) (err : LarderErr) (s : State) : Result := s.run (doCvt q err)

/-- A STAT of one OP; 4 to 7 are reserved. -/
def Part.stat (s : Part) (q op : Nat) (reserved : W64 → Bool) (body : Part → W64 → Part) : Part :=
  s.instr q 0x09 (fun w => IW.sub w == op || decide (4 ≤ IW.sub w)) (fun w => decide (4 ≤ IW.sub w) || !zero w 33 31 || reserved w) fun s w => (body s w).wake .ssu
def IW.statStream (w : W64) : Nat := fld w 21 12
/-- A pair of statistics in GA, with bit 32 (R237). -/
def statWord (p : W16 × W16) (b : Bool) : W64 := BitVec.ofNat 64 (p.1.toNat + p.2.toNat * 2 ^ 16 + bitIf b 32)

/-- STAT ENV. -/
def doStatEnv (q : Fin 9) (s : Part) : Part :=
  (s.stat q.val 0 (fun w => !IW.noGb w || !IW.noGc w) fun s w =>
    let e := s.env (IW.statStream w)
    s.setG q.val (IW.ga w) (statWord (e.eHi, e.eLo) !e.ring.isEmpty)).finish
def execStatEnv (q : Fin 9) (s : State) : Result := s.run (doStatEnv q)

/-- STAT ACC. -/
def doStatAcc (q : Fin 9) (s : Part) : Part :=
  (s.stat q.val 1 (fun w => !IW.noGb w || !IW.noGc w) fun s w =>
    let e := s.env (IW.statStream w)
    s.setG q.val (IW.ga w) (statWord e.accPair e.acc.isSome)).finish
def execStatAcc (q : Fin 9) (s : State) : Result := s.run (doStatAcc q)

/-- STAT FILL: N. -/
def doStatFill (q : Fin 9) (s : Part) : Part :=
  (s.stat q.val 2 (fun w => !IW.noGb w || !IW.noGc w) fun s w =>
    s.setG q.val (IW.ga w) (BitVec.ofNat 64 (s.env (IW.statStream w)).ring.length)).finish
def execStatFill (q : Fin 9) (s : State) : Result := s.run (doStatFill q)

/-- STAT CLEAR (R118). -/
def doStatClear (q : Fin 9) (s : Part) : Part :=
  (s.stat q.val 3 (fun w => !IW.noRegs w) fun s w =>
    (s.askEnv (IW.statStream w) fun e => { e with clearReq := true }).onSeq q.val Seq.advance).finish
def execStatClear (q : Fin 9) (s : State) : Result := s.run (doStatClear q)

/-- A SCALE of one OP; 3 to 7 are reserved. -/
def Part.scale (s : Part) (q op : Nat) (reserved : W64 → Bool) (body : Part → W64 → Part) : Part :=
  s.instr q 0x0A (fun w => IW.sub w == op || decide (3 ≤ IW.sub w)) (fun w => decide (3 ≤ IW.sub w) || !zero w 38 26 || reserved w) fun s w => (body s w).wake .ssu
def IW.fmt (w : W64) : Option Fmt := Fmt.ofCode (fld w 21 5)
def IW.scaleStream (w : W64) : Nat := fld w 26 12
/-- A bfloat16 operand; NaN and ±∞ are absent (R237). -/
def bfOperand (v : W64) (lo : Nat) : Option Q := (ofBf16 (BitVec.ofNat 16 (fld v lo 16))).fin?

/-- SCALE SYM. -/
def doScaleSym (q : Fin 9) (s : Part) : Part :=
  (s.scale q.val 0 (fun w => !IW.noGc w || !(match IW.fmt w with | some f => f.isLedger | none => false)) fun s w =>
    let a := (bfOperand ((s.seq q.val).reg (IW.gb w)) 0).map Q.abs
    let c := symScale ((IW.fmt w).getD .int8) (s.stream (IW.scaleStream w)).pow2 a
    s.setG q.val (IW.ga w) (BitVec.ofNat 64 c.toNat)).finish
def execScaleSym (q : Fin 9) (s : State) : Result := s.run (doScaleSym q)

/-- SCALE ASYM. -/
def doScaleAsym (q : Fin 9) (s : Part) : Part :=
  (s.scale q.val 1 (fun w => !IW.noGc w || !(decide (IW.fmt w = some .int8) || decide (IW.fmt w = some .uint8))) fun s w =>
    let v := (s.seq q.val).reg (IW.gb w)
    let c := asymScale ((IW.fmt w).getD .int8) (s.stream (IW.scaleStream w)).pow2 (bfOperand v 0) (bfOperand v 16)
    s.setG q.val (IW.ga w) (BitVec.ofNat 64 (c.1.toNat + c.2.toNat * 2 ^ 16))).finish
def execScaleAsym (q : Fin 9) (s : State) : Result := s.run (doScaleAsym q)

/-- An entry enters the pending calibration table and is marked changed (R133). -/
def Part.calPlace (s : Part) (i : Nat) (v : W64) : Part :=
  s.onSsu fun u => { u with calP := tabSet u.calP i (Cal.mask v) 0, calChanged := if u.calChanged.contains i then u.calChanged else i :: u.calChanged }
/-- A CAL write of a program wakes the SSU (R313); one through the window does not (R59, R347). -/
def Part.calWrite (s : Part) (i : Nat) (v : W64) : Part := (s.calPlace i v).wake .ssu

/-- SCALE CALW. -/
def doScaleCalw (q : Fin 9) (s : Part) : Part :=
  (s.scale q.val 2 (fun w => !IW.noGa w || !zero w 21 17) fun s w =>
    let x := s.seq q.val
    (s.calWrite (fld (x.reg (IW.gc w)) 0 16) (x.reg (IW.gb w))).onSeq q.val Seq.advance).finish
def execScaleCalw (q : Fin 9) (s : State) : Result := s.run (doScaleCalw q)

/-! ### TETHER and BCAST (R250 to R252) -/

/-- TETHER of one OP; 2 and 3 are reserved. -/
def Part.tether (s : Part) (q op : Nat) (reserved : W64 → Bool) (body : Part → W64 → Part) : Part :=
  s.instr q 0x10 (fun w => fld w 18 2 == op || decide (2 ≤ fld w 18 2)) (fun w => decide (2 ≤ fld w 18 2) || !zero w 50 14 || reserved w) body

/-- TETHER OPEN. -/
def doTetherOpen (q : Fin 9) (err : LarderErr) (s : Part) : Part :=
  (s.tether q.val 0 (fun _ => false) fun s w => (s.larderErr err).tetherOpenAt q.val w err.isUe).settle
def execTetherOpen (q : Fin 9) (err : LarderErr) (s : State) : Result := s.run (doTetherOpen q err)

/-- An open that fails at its end (R250). -/
def Part.openEnds (s : Part) (c : Nat) (x : Ctx) (reason : Nat) : Part :=
  let s := s.dropCtx 0 c
  (match x.owner with
    | some o => s.signalIf o.2.2 o.1 o.2.1.toNat (evTether 1 c reason 0)
    | none => s).retestFences

/-- The sequencer that waits for an open goes on. -/
def Part.openGoesOn (s : Part) (c : Nat) (x : Ctx) : Part :=
  match x.owner with
  | some o => match (s.seq o.1).wait with
    | .tetherOpen c' => if c' = c then (s.onSeq o.1 Seq.advance).mirrorSeq o.1 else s
    | _ => s
  | none => s

/-- TETHER_OPEN_DONE (R250): K0 has checked the context against its table and fixed u0 (R167). One that was opening as the instance entered the
Harbour acts as R308 has it. -/
def doTetherOpenDone (ctx : Fin 64) (s : Part) : Part :=
  let c := ctx.val
  match s.ctxOf 0 c with
  | none => s.settle
  | some x =>
    if !x.opening || !s.mb.runs 0 then s.settle
    else
      let s := s.openGoesOn c x
      if s.tableReason x.blk then (s.openEnds c x 4).settle
      else if x.failReason ≠ 0 then (s.openEnds c x x.failReason).settle
      else
        let e := s.openExp x.blk x.se
        let s := ((s.calMiss e.2 (Tb.stream x.blk)).setCtx 0 c (x.opened e.1)).ctxOpened c
        (if x.role = .member then s else s.actAbsent 0 c).settle
def execTetherOpenDone (ctx : Fin 64) (s : State) : Result := s.run (doTetherOpenDone ctx)

/-- TETHER CLOSE (R251); without effect on a context that is not open. -/
def doTetherClose (q : Fin 9) (s : Part) : Part :=
  (s.tether q.val 1 (fun w => !IW.noRegs w || !zero w 26 15) fun s w =>
    let c := fld w 20 6
    let s := s.onSeq q.val Seq.advance
    match s.ctxOf 0 c with
    | none => s
    | some x =>
      if x.opening then s
      else (s.onGroup (Tb.group x.blk) fun g => { g with closedSeq := some (BitVec.ofNat 16 (Tb.seq x.blk)) }).ctxEnd 0 c 2).settle
def execTetherClose (q : Fin 9) (s : State) : Result := s.run (doTetherClose q)

/-- BCAST (R252): held chunks go out at once where their buffers are granted, later ones as they finish. -/
def doBcast (q : Fin 9) (s : Part) : Part :=
  (s.instr q.val 0x11 (fun _ => true) (fun w => !IW.noRegs w || !zero w 24 40) fun s w =>
    let c := fld w 18 6
    let s := s.onSeq q.val Seq.advance
    match s.ctxOf 0 c with
    | none => s
    | some x =>
      if x.opening || !Tb.bhold x.blk then s
      else
        let held := x.chunks.filter fun k => k.2.bcastHeld
        ((s.onCtx 0 c fun y => { y with bcast := true }).each held fun s k => s.releaseFinished 0 c k.1).runCtx 0 c).settle
def execBcast (q : Fin 9) (s : State) : Result := s.run (doBcast q)

/-! ### COURIER (R235, R238) -/

/-- COURIER: a barrier is issued at once, a sum once its payload has been read. Offsets that are no multiples of 8 below 2^47 refuse the
issue (log entry 15). -/
def doCourier (q : Fin 9) (s : Part) : Part :=
  (s.instr q.val 0x12 (fun _ => true)
    (fun w => !zero w 36 28 || decide (fld w 22 2 = 3) || (decide (fld w 22 2 = 2) && (!IW.noGa w || !IW.noGb w))) fun s w =>
    let x := s.seq q.val
    let g := fld w 18 4
    let op := fld w 22 2
    let len8 := fld w 24 3
    let ev := fld w 27 8
    let en := bitOf w 35
    let cs := fld (x.reg (IW.gc w)) 0 24
    let a := x.reg (IW.ga w)
    let b := x.reg (IW.gb w)
    let s := s.onSeq q.val Seq.advance
    let prog := some (q.val, BitVec.ofNat 8 ev, en, b.toNat)
    if op = 2 then s.crIssue g 2 (BitVec.ofNat 3 len8) cs prog
    else if badWordOff a || badWordOff b then s.crRefuse g prog
    else
      let skip := a.toNat % 64
      s.nocRead (portOf q.val) (a.toNat - skip) ((skip + (len8 + 1) * 8 + 63) / 64 * 64) (.courierIn g skip op len8 cs q.val ev en b.toNat)).settle
def execCourier (q : Fin 9) (s : State) : Result := s.run (doCourier q)

/-! ### Synchronisation (R242, R243, R253, R254) -/

/-- WAITEV: the window starts at issue (R242). -/
def doWaitev (q : Fin 9) (s : Part) : Part :=
  (s.instr q.val 0x18 (fun _ => true) (fun w => !IW.noGb w || !IW.noGc w || zero w 26 8 || !zero w 58 6) fun s w =>
    let ev := fld w 18 8
    let tmo := fld w 34 24
    let now := s.now
    s.onSeq q.val fun x =>
      (x.park 0x18 ev (.event ev (fld w 26 8) (if tmo = 0 then none else some (now + tmo * 1000)) (IW.ga w))).testEvent now).finish
def execWaitev (q : Fin 9) (s : State) : Result := s.run (doWaitev q)

/-- WAITEV_TIMEOUT (R242): the window has ended. -/
def doWaitevTimeout (q : Fin 9) (s : Part) : Part :=
  let now := s.now
  ((s.onSeq q.val fun x => x.expire now).mirrorSeq q.val).finish
def execWaitevTimeout (q : Fin 9) (s : State) : Result := s.run (doWaitevTimeout q)

/-- SIGNAL (R243): to a sequencer's event, or to K1 as the note PROGRAM_SIGNAL (R296). -/
def doSignal (q : Fin 9) (s : Part) : Part :=
  (s.instr q.val 0x19 (fun _ => true) (fun w => !IW.noRegs w || decide (9 < fld w 18 4) || !zero w 38 26) fun s w =>
    let tgt := fld w 18 4
    let ev := fld w 22 8
    let code := fld w 30 8
    let s := s.onSeq q.val Seq.advance
    if tgt = 9 then s.note 1 (BitVec.ofNat 16 (q.val + ev * 256)) (BitVec.ofNat 32 code)
    else s.signal tgt ev (evSignal code q.val)).finish
def execSignal (q : Fin 9) (s : State) : Result := s.run (doSignal q)

/-- EVENT_SIGNAL (R240, R241): a status reaches an event. -/
def doEventSignal (q : Fin 9) (event : Byte) (status : W64) (s : Part) : Part := (s.signal q.val event.toNat status).finish
def execEventSignal (q : Fin 9) (event : Byte) (status : W64) (s : State) : Result := s.run (doEventSignal q event status)

/-- STEPMARK (R253). -/
def doStepmark (q : Fin 9) (s : Part) : Part :=
  (s.instr q.val 0x1A (fun _ => true) (fun w => !IW.noGb w || !IW.noGc w || !zero w 50 14) fun s w =>
    let m := BitVec.ofNat 32 (fld w 18 32 + ((s.seq q.val).reg (IW.ga w)).toNat)
    if s.glob.stepSrcEff.toNat = q.val then
      if m = s.glob.step + 1 then (s.onSeq q.val Seq.advance).stepMark else s.seqFault q.val 8
    else if (s.glob.step - m).toNat < 2 ^ 31 then s.onSeq q.val Seq.advance
    else s.onSeq q.val fun x => x.park 0x1A 0 (.stepmark m)).settle
def execStepmark (q : Fin 9) (s : State) : Result := s.run (doStepmark q)

/-- FENCE (R254). -/
def doFence (q : Fin 9) (s : Part) : Part :=
  (s.instr q.val 0x1B (fun _ => true) (fun w => !IW.noRegs w || zero w 18 4 || !zero w 22 42) fun s w =>
    let scope := fld w 18 4
    if s.fenceOk q.val scope then s.fenceEnd q.val scope else s.onSeq q.val fun x => x.park 0x1B 0 (.fence scope)).finish
def execFence (q : Fin 9) (s : State) : Result := s.run (doFence q)

/-! ### Control (R239) -/

/-- LOOP SET. -/
def doLoopSet (q : Fin 9) (s : Part) : Part :=
  (s.instr q.val 0x20 (fun w => !bitOf w 18) (fun w => !IW.noRegs w || zero w 21 24 || !zero w 45 19) fun s w =>
    s.onSeq q.val fun x => { x.advance with lcs := tabSet x.lcs (fld w 19 2) (BitVec.ofNat 24 (fld w 21 24)) 0 }).finish
def execLoopSet (q : Fin 9) (s : State) : Result := s.run (doLoopSet q)

/-- LOOP END. -/
def doLoopEnd (q : Fin 9) (s : Part) : Part :=
  (s.instr q.val 0x20 (fun w => bitOf w 18) (fun w => !IW.noGb w || !zero w 36 28) fun s w =>
    let x := s.seq q.val
    let i := fld w 19 2
    let l := x.lc i
    if l = 0#24 then s.seqFault q.val 9
    else if l = 1#24 then s.onSeq q.val fun x => { x.advance with lcs := tabSet x.lcs i 0 0 }
    else s.branch q.val (IW.target w) fun x =>
      { x with lcs := tabSet x.lcs i (l - 1) 0 }.setReg (IW.ga w) (x.reg (IW.ga w) + x.reg (IW.gc w))).finish
def execLoopEnd (q : Fin 9) (s : State) : Result := s.run (doLoopEnd q)

/-- COND of BR (R234). -/
def brHolds (cond : Nat) (a b : W64) : Bool :=
  match cond with
  | 0 => true
  | 1 => a == 0#64
  | 2 => a != 0#64
  | 3 => bitOf a 63
  | 4 => (a &&& b) != 0#64
  | 5 => (a &&& b) == 0#64
  | _ => a == b

/-- BR. -/
def doBr (q : Fin 9) (s : Part) : Part :=
  (s.instr q.val 0x21 (fun _ => true)
    (fun w => !IW.noGc w || decide (IW.sub w = 7) || !zero w 36 28 || (decide (IW.sub w < 4) && !IW.noGb w) || (decide (IW.sub w = 0) && !IW.noGa w))
    fun s w =>
      let x := s.seq q.val
      if brHolds (IW.sub w) (x.reg (IW.ga w)) (x.reg (IW.gb w)) then s.branch q.val (IW.target w) id
      else s.onSeq q.val Seq.advance).finish
def execBr (q : Fin 9) (s : State) : Result := s.run (doBr q)

/-- CALL. -/
def doCall (q : Fin 9) (s : Part) : Part :=
  (s.instr q.val 0x22 (fun _ => true) (fun w => !IW.noRegs w || !zero w 18 3 || !zero w 36 28) fun s w =>
    if 8 ≤ (s.seq q.val).stack.length then s.seqFault q.val 5
    else s.branch q.val (IW.target w) fun x => { x with stack := (x.pc + 1) :: x.stack }).finish
def execCall (q : Fin 9) (s : State) : Result := s.run (doCall q)

/-- RET. -/
def doRet (q : Fin 9) (s : Part) : Part :=
  (s.instr q.val 0x23 (fun _ => true) (fun w => !zero w 6 58) fun s _ =>
    match (s.seq q.val).stack with
    | [] => s.seqFault q.val 5
    | t :: rest => s.branch q.val t.toNat fun x => { x with stack := rest }).finish
def execRet (q : Fin 9) (s : State) : Result := s.run (doRet q)

/-- HALT: its issue completes, PC at the next word. -/
def doHalt (q : Fin 9) (s : Part) : Part :=
  (s.instr q.val 0x24 (fun _ => true) (fun w => !IW.noRegs w || !zero w 26 38) fun s w =>
    (s.onSeq q.val fun x => { x.advance with st := 3, hcode := BitVec.ofNat 8 (fld w 18 8) }).onIrq fun i =>
      { i with seqHalt := setBitAt i.seqHalt q.val }).finish
def execHalt (q : Fin 9) (s : State) : Result := s.run (doHalt q)

/-- ILLEGAL_OPCODE (R233, R255, R284): a word of no opcode, or one that a Larder error made read as zero. -/
def doIllegalOpcode (q : Fin 9) (err : LarderErr) (s : Part) : Part :=
  let x := s.seq q
  if x.st ≠ 1#3 || s.glob.fencedSelf then s.finish
  else match x.word with
    | none => (((s.seqFault q.val 3).mirrorSeq q.val).seqLeft q.val).finish
    | some w =>
      if opcodes.contains (IW.opc w) && !err.isUe then s.finish
      else ((((s.larderErr err).seqFault q.val 1).mirrorSeq q.val).seqLeft q.val).finish
def execIllegalOpcode (q : Fin 9) (err : LarderErr) (s : State) : Result := s.run (doIllegalOpcode q err)

/-! ### Sequencer control (R228, R229, R231) -/

/-- Offset of a sequencer register in the window (R231, R331). -/
def seqOff (q reg : Nat) : Nat := if q < 8 then 0x8000 + q * 0x400 + reg else 0xA400 + reg
/-- The states in which START, RESUME and LOAD are accepted. -/
def Seq.idleState (x : Seq) : Bool := x.st != 1#3 && x.st != 2#3
def Part.wakeSeq (s : Part) (q : Nat) : Part := s.wake (seqDom q)

/-- START (R229); an instance that R266 has stopped starts nothing. -/
def Part.seqStart (s : Part) (q : Nat) : Part :=
  let x := s.seq q
  if x.idleState && x.loaded then
    if s.glob.fencedSelf then s
    else ((s.onSeq q fun x =>
      { x with st := 1, pc := x.startPc, regs := [], lcs := [], stack := [], events := [], wait := .none, waitOpc := 0, waitEv := 0 }).wakeSeq q).mirrorSeq q
  else s.accessErr 2 (seqOff q 0) true
def doSeqStart (q : Fin 9) (s : Part) : Part := (s.whenOpen fun s => s.seqStart q.val).finish
def execSeqStart (q : Fin 9) (s : State) : Result := s.run (doSeqStart q)

/-- RESUME (R229); an instance that R266 has stopped resumes nothing. -/
def Part.seqResume (s : Part) (q : Nat) : Part :=
  let x := s.seq q
  if x.idleState && x.loaded then
    if s.glob.fencedSelf then s else ((s.onSeq q fun x => { x with st := 1 }).wakeSeq q).mirrorSeq q
  else s.accessErr 2 (seqOff q 0) true
def doSeqResume (q : Fin 9) (s : Part) : Part := (s.whenOpen fun s => s.seqResume q.val).finish
def execSeqResume (q : Fin 9) (s : State) : Result := s.run (doSeqResume q)

/-- SEQ_STOP (R229). -/
def doSeqStop (q : Fin 9) (s : Part) : Part := (s.whenOpen fun s => (s.stopSeq q.val).mirrorSeq q.val).finish
def execSeqStop (q : Fin 9) (s : State) : Result := s.run (doSeqStop q)

/-- LOAD (R228): the old Spool goes, credits are asked for at the sequencer's own unit; the copy begins with the grant. -/
def Part.spoolLoad (s : Part) (q : Nat) : Part :=
  let x := s.seq q
  if !x.idleState then s.accessErr 2 (seqOff q 0) true
  else if x.lenReg = 0#16 || decide (32768 < x.lenReg.toNat) then s.accessErr 4 (seqOff q 0) true
  else
    let s := s.release x.spoolBuf
    let s := s.dropReads (portOf q) fun u => match u with | .spool q' => decide (q' = q) | _ => false
    let unit := if q < 8 then 64 + q else 72
    let r := s.larderReq unit unit ((8 * x.lenReg.toNat + 1023) / 1024)
    (r.2.onSeq q fun x =>
      { x with
        loaded := false
        spool := []
        spoolBuf := some r.1
        loading := some { id := r.1, len := x.lenReg.toNat, src := x.srcReg.toNat / 64 * 64, asked := false } }).mirrorSeq q
def doSpoolLoad (q : Fin 9) (s : Part) : Part := (s.whenOpen fun s => s.spoolLoad q.val).finish
def execSpoolLoad (q : Fin 9) (s : State) : Result := s.run (doSpoolLoad q)

/-- The word of WL_WS_SEQ_CTRL (R229, R231): STOP prevails over START and RESUME, START over RESUME; LOAD comes after them. -/
def Part.seqCtrl (s : Part) (q : Nat) (v : W32) : Part :=
  let s := if bitOf v 2 then (s.stopSeq q).mirrorSeq q else if bitOf v 0 then s.seqStart q else if bitOf v 1 then s.seqResume q else s
  if bitOf v 3 then s.spoolLoad q else s

/-! ### Step marks by the host (R253, R335, R336) -/

/-- A write of WL_GLOBAL_STEPMARK. -/
def Part.hostMark (s : Part) (v : W32) : Part :=
  if s.glob.stepSrcEff = 15#4 && v = s.glob.step + 1 then s.stepMark else s.accessErr 2 0x10C true
def doHostStepmark (value : W32) (s : Part) : Part := (s.whenOpen fun s => s.hostMark value).settle
def execHostStepmark (value : W32) (s : State) : Result := s.run (doHostStepmark value)

/-- A write of WL_GLOBAL_CTRL: in force in the AON cycle after it (R336). -/
def Part.stepSource (s : Part) (v : W32) : Part :=
  let n := fld v 0 4
  if 9 ≤ n ∧ n ≤ 14 then s.accessErr 4 0x100 true else s.onGlob fun g => { g with stepSrc := BitVec.ofNat 4 n }
def doStepSourceWrite (value : W32) (s : Part) : Part := (s.whenOpen fun s => s.stepSource value).finish
def execStepSourceWrite (value : W32) (s : State) : Result := s.run (doStepSourceWrite value)

end Sys2Proof.Machine
end

