-- ==== Sys2Proof/Machine/ResetOps.lean ====
section
/-! DEFINITION. Resets (R319, R333), the heartbeat (R306), the mailbox doorbell (R293), the Guestbook's flush (R310). -/

namespace Sys2Proof.Machine

/-! ### Resets (R319) -/

/-- What a reset leaves of the model's own record: what has been sent, and the counters. -/
def Part.recordOf (p s : Part) : Part := { p with out := s.out, nextId := s.nextId, freeCtr := s.freeCtr }

/-- A cold reset; `cause` is the code of WL_PWR_RESET_CAUSE. -/
def Part.coldReset (s : Part) (sensed : BitVec 2048) (cause : BitVec 4) : Part :=
  ((Part.reset sensed).onPwr fun p => { p with cause := cause }).recordOf s

/-- A warm reset: registers return to their reset values (R333), but the cause, local time, fuse values and the limits of R316 stand; so do the
hardware queues, which hold their entries in the AON domain (R291). STEP reads 2 at the next AON cycle, and until then the window is shut (R333). -/
def Part.warmReset (s : Part) (cause : BitVec 4) : Part :=
  let p := ((Part.reset s.sensed).onPwr fun p =>
    { p with
      inputs := s.pwr.inputs
      ack := s.pwr.ack
      throttled := s.pwr.throttled
      stepEff := s.pwr.stepEff
      release := s.pwr.release
      cause := cause
      warmCnt := BitVec.ofNat 8 (satN 8 s.pwr.warmCnt.toNat 1) }).recordOf s
  (p.onGlob fun g => { g with time := s.glob.time, acted := s.glob.acted, evSeq := s.eventSeq, tbHold := s.glob.tbHold }).onMb fun m =>
    { m with emerg := s.mb.emerg, k1q := s.mb.k1q, ctlq := s.mb.ctlq, traceq := s.mb.traceq }

/-- A write of WL_PWR_RESET (R319). -/
def Part.resetWord (s : Part) (v : W32) : Part :=
  if fld v 16 16 ≠ 0xC1A0 then s.accessErr 3 0xD31C true
  else if bitOf v 0 then s.warmReset 4 else s

/-! ### The mailbox (R293) -/

/-- A doorbell. -/
def Part.doorbell (s : Part) (v : W32) : Part :=
  if s.mb.busy then s.accessErr 2 0xD000 true
  else (s.onMb fun m => { m with busy := true, rspDone := false, doorbell := some (BitVec.ofNat 8 (fld v 0 8), BitVec.ofNat 8 (fld v 8 8)) }).wake .fwc

/-! ### The heartbeat (R306) -/

/-- A write of WL_MB_HEARTBEAT: it arms or refreshes the window; at or after its end, an expiry that waits for a Keeper included, it changes
only COUNT. -/
def Part.heartbeat (s : Part) (v : W32) : Part :=
  let t := s.now
  s.onMb fun m =>
    if m.st = 3#4 && !m.hbLatched && m.harbourLate.isNone && !(m.hbArmed && decide (m.hbLast + 200000000 ≤ t)) then { m with hbCount := v, hbArmed := true, hbLast := t }
    else { m with hbCount := v }

/-! ### The Guestbook (R310) -/

/-- Staged entries go to the ring once BASE and SIZE stand; K3 writes them, so they wait while it is down (R302). -/
def Part.gbFlush (s : Part) : Part :=
  if s.gb.base = 0#64 || s.gb.size = 0#32 || (3 ≤ s.mb.st.toNat && !s.mb.runs 3) then s
  else
    let es := s.gb.staged
    (s.onGb fun g => { g with staged := [] }).each es Part.guestWrite

end Sys2Proof.Machine
end

