-- ==== Sys2Proof/Machine/Window.lean ====
section
/-! DEFINITION. The register window (R5, R8 to R12, R331 to R348): what every offset reads as, what a write does, what a read clears or
latches. Offsets are those of R331 with the blocks of R143, R225, R231, R287, R292, R310, R330, R334, R335, R338, R340, R342, R344. -/

namespace Sys2Proof.Machine

/-! ### The window (R7) -/

/-- Where the window of the instance on die d begins in package management space; the commands give offsets from there. -/
def windowBase (d : Nat) : Nat := 0x00F00000 + d * 0x00100000
/-- The offset of a package management address in the window of die d, where it lies in its 1 MiB. -/
def windowOffset (d addr : Nat) : Option (BitVec 20) :=
  if windowBase d ≤ addr ∧ addr < windowBase d + 0x00100000 then some (BitVec.ofNat 20 (addr - windowBase d)) else none

/-! ### Words -/

def w32 (n : Nat) : W32 := BitVec.ofNat 32 n
/-- One bit per number below n for which `f` holds. -/
def maskOf (n : Nat) (f : Nat → Bool) : Nat := (List.range n).foldl (fun a i => a + bitIf (f i) i) 0

/-- WL_SEC_STATUS (R328, R334). -/
def secStatus (f : BitVec 2048) : W32 :=
  w32 (((List.range 128).filter fun i => bitOf f (1540 + i)).length + fld f 1536 4 * 2 ^ 8 + bitIf (bitOf f 1668) 12)

/-- WL_GLOBAL_STATUS (R335). -/
def Glob.status (g : Glob) : W32 :=
  w32 (bitIf g.ready 0 + bitIf g.accessErr 1 + bitIf g.tbSlip 2 + bitIf g.tbLost 3 + bitIf g.tbValid 4 + g.stepSrcEff.toNat * 2 ^ 8)

/-- WL_DP_STATUS (R143). -/
def Part.dpStatus (s : Part) (n : Nat) : W32 :=
  let p := s.dp n
  w32 (bitIf p.fenced 0 + bitIf p.coreFault 1 + bitIf p.exec.isSome 2 + bitIf p.pend.isSome 3 + bitIf (s.dpAwake n) 4 + p.held.toNat * 2 ^ 5)

/-- WL_WS_STATUS.DEP_WAIT (R31, R342): the oldest deposit waits for its accumulator's credits. -/
def Part.depWaits (s : Part) (w : Nat) : Bool :=
  match (s.ws w).deposits with
  | [] => false
  | d :: _ =>
    match s.ctxOf 0 d.ctx with
    | some x => decide (1 < Tb.depExp x.blk) && (x.touched d).any fun k =>
        match tabFind (x.chunk k).accs w with | some b => !s.granted b | none => false
    | none => false

/-- WL_PWR_STATUS (R315, R330). -/
def Part.pwrStatus (s : Part) : W32 :=
  let p := s.pwr
  let asleep := p.awake.all fun d => decide (d = .courier) || (decide (d = .lane 0) && s.courier.en)
  w32 (bitIf asleep 0 + p.stepEff * 2 + bitIf (decide (0 < p.stepEff)) 4 + (p.awake.filter isQuad).length * 2 ^ 5
    + maskOf 8 (fun w => p.awake.contains (wsDom w)) * 2 ^ 10 + maskOf 8 (fun g => p.awake.contains (.lane (Fin.ofNat 8 g))) * 2 ^ 18
    + bitIf p.release.isSome 26)

/-- Inputs as recognised (R330). -/
def PwrIn.word (i : PwrIn) : Nat := bitIf i.trip 0 + bitIf i.emerg 1 + bitIf i.warn 2 + i.limit.toNat * 2 ^ 3

/-- WL_MB_STATUS (R292). -/
def Mb.status (m : Mb) : W32 :=
  w32 (bitIf m.busy 0 + m.st.toNat * 2 ^ 4 + bitIf m.parked 8 + bitIf m.hbArmed 9 + bitIf m.debugUnlocked 10 + bitIf m.emerg 11
    + bitIf m.actPending 12 + m.keeperUp.toNat * 2 ^ 16)

/-- The partition set that reads return (R340). -/
def Larder.shown (l : Larder) : PartSet := if l.showActive then l.active else l.pendingSet
/-- WL_LARDER_OWNERk (R340, R341). -/
def PartSet.ownerWord (p : PartSet) (k : Nat) : W32 :=
  w32 ((List.range 8).foldl (fun a j => a + p.owners.getD (8 * k + j) 0 * 2 ^ (4 * j)) 0)
def PartSet.setOwners (p : PartSet) (k : Nat) (v : W32) : PartSet :=
  { p with owners := (List.range 8).foldl (fun o j => o.set (8 * k + j) (fld v (4 * j) 4)) p.owners }

/-- The Tether registers of context c in Waystation w (R343). -/
def Part.tetherReg (s : Part) (w c : Nat) : W32 × W32 :=
  match tabFind s.tetherRegs c with
  | some r => if r.1 = w then r.2 else (0, 0)
  | none => (0, 0)

/-- Sequencer number by the window offset of its registers, with the register's own offset. -/
def seqOfOff (off : Nat) : Option (Nat × Nat) :=
  if 0x8000 ≤ off ∧ off < 0xA000 ∧ off % 0x400 < 0x40 then some ((off - 0x8000) / 0x400, off % 0x400)
  else if 0xA400 ≤ off ∧ off < 0xA440 then some (8, off - 0xA400)
  else none

/-! ### 64-bit quantities (R12) -/

/-- Context k of a drain port (R143). -/
def Dp.ctxK (p : Dp) (k : Nat) : DrainCtx := if k = 0 then p.ctx0 else if k = 1 then p.ctx1 else p.ctx2
def Dp.onCtxK (p : Dp) (k : Nat) (f : DrainCtx → DrainCtx) : Dp :=
  if k = 0 then { p with ctx0 := f p.ctx0 } else if k = 1 then { p with ctx1 := f p.ctx1 } else { p with ctx2 := f p.ctx2 }
def DrainCtx.pair (c : DrainCtx) (r : Nat) : Option W64 :=
  match r with
  | 0x00 => some c.data | 0x08 => some c.ledger | 0x10 => some c.bias | 0x18 => some c.res | 0x20 => some c.smooth | 0x28 => some c.stat
  | _ => none
def DrainCtx.setPair (c : DrainCtx) (r : Nat) (v : W64) : DrainCtx :=
  match r with
  | 0x00 => { c with data := v } | 0x08 => { c with ledger := v } | 0x10 => { c with bias := v } | 0x18 => { c with res := v }
  | 0x20 => { c with smooth := v } | _ => { c with stat := v }
/-- Port, context and register of a drain-port offset. -/
def dpOfOff (off : Nat) : Option (Nat × Nat) := if 0x4000 ≤ off ∧ off < 0x8000 then some ((off - 0x4000) / 0x100, off % 0x100) else none

/-- The quantity whose low half stands at an offset: whether software writes it, and its value. -/
def Part.pairAt (s : Part) (off : Nat) : Option (Bool × W64) :=
  match dpOfOff off with
  | some (n, o) => if o < 0x40 then none else (((s.dp n).ctxK (o / 0x40 - 1)).pair (o % 0x40)).map fun v => (true, v)
  | none =>
    match seqOfOff off with
    | some (q, o) => if o = 0x10 then some (true, (s.seq q).srcReg) else none
    | none =>
      if 0x8000 ≤ off ∧ off < 0xA000 then
        if off % 0x400 = 0x58 then some (false, BitVec.ofNat 64 (maskOf 64 fun c => match s.ctxOf 0 c with | some x => !x.opening | none => false))
        else none
      else if 0xA100 ≤ off ∧ off < 0xA300 ∧ off % 8 = 0 then
        let w := tabGet s.gh.wins ((off - 0xA100) / 16) .reset
        some (true, if off % 16 = 0 then w.base else w.limit)
      else match off with
        | 0x00020 => some (false, Config.serial)
        | 0x00110 => some (false, BitVec.ofNat 64 s.glob.time)
        | 0x00118 => some (false, BitVec.ofNat 64 s.glob.stepTime)
        | 0x00210 => some (false, s.irq.dpErr)
        | 0x00218 => some (false, s.irq.dpRej)
        | 0x00220 => some (false, s.irq.dpFence)
        | 0x0C074 => some (false, BitVec.ofNat 64 (s.ssu.calLo.toNat + s.ssu.calHi.toNat * 2 ^ 32))
        | 0x0A05C => some (false, BitVec.ofNat 64 (tabGet s.gh.quar s.gh.quarIdx.toNat .reset).time)
        | 0x0D068 => some (false, BitVec.ofNat 64 s.mb.hbLast)
        | 0x0D070 => some (true, s.mb.noteBase)
        | 0x0D100 => some (true, s.gb.base)
        | 0x0D210 => some (false, BitVec.ofNat 64 s.twin.lossTime)
        | 0x0D220 => some (true, s.twin.ckpt)
        | 0x0D338 => some (false, BitVec.ofNat 64 s.pwr.throttleNs)
        | _ => none

/-- Bits of the low half of a 64-bit RW quantity that are not reserved (R5). -/
def pairLow (off : Nat) : W32 :=
  if 0xA100 ≤ off ∧ off < 0xA300 then (if off % 16 = 0 then 0xFFFFFFC7 else 0xFFFFFFC0) else 0xFFFFFFFF

/-- Die offsets keep 47 bits. -/
def off47 (v : W64) : W64 := BitVec.ofNat 64 (fld v 0 47)

/-- A 64-bit RW quantity takes its new value (R12). -/
def Part.setPair (s : Part) (off : Nat) (v : W64) : Part :=
  match dpOfOff off with
  | some (n, o) => s.onDp n fun p => p.onCtxK (o / 0x40 - 1) fun c => c.setPair (o % 0x40) (off47 v)
  | none =>
    match seqOfOff off with
    | some (q, _) => s.onSeq q fun x => { x with srcReg := off47 v }
    | none =>
      if off < 0xA300 then
        s.onGh fun g => { g with wins := tabMod g.wins ((off - 0xA100) / 16) .reset fun w =>
          if off % 16 = 0 then { w with base := v &&& 0x7FFFFFFFFFC7#64 } else { w with limit := v &&& 0x7FFFFFFFFFC0#64 } }
      else match off with
        | 0x0D070 => s.onMb fun m => { m with noteBase := off47 v }
        | 0x0D100 => (s.onGb fun g => { g with base := off47 v }).gbFlush
        | _ => s.onTwin fun t => { t with ckpt := off47 v }

/-! ### Reads -/

/-- Registers of one sequencer (R231). A write of its reserved offsets is ignored without ACCESS_ERR, as of the drain ports' (R143; DESIGN CHOICE,
log entry 35). -/
def Seq.rd (x : Seq) (o : Nat) : Option W32 :=
  match o with
  | 0x00 => some 0
  | 0x04 => some (w32 (x.st.toNat + bitIf x.loaded 3 + x.fcode.toNat * 2 ^ 8 + x.hcode.toNat * 2 ^ 16))
  | 0x08 => some (w32 x.pc.toNat)
  | 0x0C => some (w32 x.lenReg.toNat)
  | 0x18 => some (w32 x.faultPc.toNat)
  | 0x1C => some (w32 (x.waitOpc.toNat + x.waitEv.toNat * 2 ^ 8))
  | 0x20 => some x.instrCnt
  | 0x24 => some x.wstoreErr
  | 0x28 => some 0 | 0x2C => some 0 | 0x30 => some 0 | 0x34 => some 0 | 0x38 => some 0 | 0x3C => some 0
  | _ => none

/-- Drain ports (R143). -/
def Part.rdDp (s : Part) (n o : Nat) : Option W32 :=
  let p := s.dp n
  if o < 0x40 then
    match o with
    | 0x00 => some (w32 (b2n p.fenceBit))
    | 0x04 => some (s.dpStatus n)
    | 0x08 => some p.reject
    | 0x0C => some p.rejectCnt
    | 0x10 => some p.errCnt
    | 0x14 => some p.abortCnt
    | 0x18 => some p.tileCnt
    | _ => some 0
  else
    let c := p.ctxK (o / 0x40 - 1)
    match o % 0x40 with
    | 0x30 => some c.pitch
    | 0x34 => some c.cfg
    | 0x38 => some c.resPitch
    | 0x3C => some 0
    | _ => none

/-- Waystations beside their sequencers (R287, R342). -/
def Part.rdWs (s : Part) (w o : Nat) : Option W32 :=
  let y := s.ws w
  if 0x100 ≤ o ∧ o < 0x200 then some (s.tetherReg w ((o - 0x100) / 4)).1
  else if 0x200 ≤ o ∧ o < 0x300 then some (s.tetherReg w ((o - 0x200) / 4)).2
  else match o with
    | 0x40 => some y.stallTmo
    | 0x44 => some y.replayCnt
    | 0x48 => some y.replayDiscard
    | 0x4C => some y.tetherBad
    | 0x50 => some y.tetherLate
    | 0x54 => some (w32 (bitIf (s.pwr.awake.contains (wsDom w)) 0 + bitIf (s.depWaits w) 1))
    | _ => none

/-- Gatehouse (R225). -/
def Part.rdGh (s : Part) (o : Nat) : Option W32 :=
  let g := s.gh
  let q := tabGet g.quar g.quarIdx.toNat .reset
  match o with
  | 0x00 => some (w32 g.lgEn.toNat)
  | 0x04 => some (w32 (maskOf 8 (fun i => (s.lg i).active) + maskOf 8 (fun i => (s.lg i).down) * 2 ^ 8))
  | 0x08 => some (w32 (Config.die.toNat + g.package.toNat * 4 + bitIf g.side 16))
  | 0x0C => some (w32 (g.identTwin.toNat + bitIf g.twinValid 31))
  | 0x10 => some (let e := g.epochP.getD (g.epochOwn, g.epochTwin); w32 (e.1.toNat + e.2.toNat * 2 ^ 16))
  | 0x14 => some (w32 g.routeIdx.toNat)
  | 0x18 => some (tabGet g.routes g.routeIdx.toNat 0)
  | 0x1C => some (w32 g.roleIdx.toNat)
  | 0x20 => some (w32 (tabGet g.roles g.roleIdx.toNat 0).toNat)
  | 0x24 => some g.ackTmo
  | 0x28 => some g.msgTmo
  | 0x2C => some g.retryCnt
  | 0x30 => some g.badFlitCnt
  | 0x34 => some g.quarCnt
  | 0x38 => some g.holdCnt
  | 0x3C => some g.nackRxCnt
  | 0x40 => some g.ackLateCnt
  | 0x44 => some g.msgDropCnt
  | 0x48 => some (w32 (g.quarIdx.toNat + g.quarHead.toNat * 2 ^ 8))
  | 0x4C => some (w32 (fld q.hdr 0 32))
  | 0x50 => some (w32 (fld q.hdr 32 32))
  | 0x54 => some (w32 (fld q.hdr 64 32))
  | 0x58 => some (w32 (fld q.hdr 96 32))
  | 0x64 => some (w32 (q.epoch.toNat + q.status.toNat * 2 ^ 16))
  | 0x68 => some 0
  | _ => none

/-- Courier (R225). -/
def Part.rdCr (s : Part) (o : Nat) : Option W32 :=
  if 0x100 ≤ o ∧ o < 0x900 then
    let c := s.crg ((o - 0x100) / 0x80)
    let r := (o - 0x100) % 0x80
    if r < 0x40 then some (c.data.getD (r / 4) 0)
    else match r with
      | 0x40 => some (w32 (c.count.toNat + bitIf c.absent 17 + bitIf c.ovf 18 + bitIf c.doneF 19 + bitIf c.refused 20))
      | 0x44 => some 0
      | 0x48 => some (w32 (c.rank.toNat + c.msize.toNat * 2 ^ 16))
      | 0x4C => some (w32 (c.cepoch.toNat + bitIf c.bound 31))
      | _ => none
  else match o with
    | 0x00 => some (w32 (b2n s.courier.en))
    | 0x04 => some s.courier.budget
    | 0x08 => some (w32 (maskOf 16 (fun g => (s.crg g).busy) + maskOf 16 (fun g => (s.crg g).bound) * 2 ^ 16))
    | 0x0C => some s.courier.lateCnt
    | 0x10 => some s.courier.epochDropCnt
    | _ => none

/-- SSU and Envelope (R344 to R348). -/
def Part.rdSsu (s : Part) (o : Nat) : Option W32 :=
  let u := s.ssu
  let e := s.env u.envIdx.toNat
  if 0x30 ≤ o ∧ o < 0x48 then some (u.strData.word (s.env u.strIdx.toNat).wide ((o - 0x30) / 4))
  else match o with
    | 0x00 => some (w32 (bitIf u.ledgerErr 0 + bitIf u.lodgeTmo 1 + bitIf u.misfit 2 + u.misfitStream.toNat * 2 ^ 16))
    | 0x04 => some u.tmo
    | 0x08 => some u.ledgerErrCnt
    | 0x0C => some u.calMiss
    | 0x10 => some u.wideRows
    | 0x14 => some u.lodgeTmoCnt
    | 0x18 => some u.lodgeLate
    | 0x1C => some u.misfitCnt
    | 0x20 => some (w32 u.strIdx.toNat)
    | 0x24 => some 0
    | 0x28 => some (w32 (b2n u.showActive))
    | 0x50 => some (w32 u.signIdx.toNat)
    | 0x54 => some (w32 (fld u.signData 0 32))
    | 0x58 => some (w32 (fld u.signData 32 32))
    | 0x5C => some (w32 (fld u.signData 64 32))
    | 0x60 => some (w32 (fld u.signData 96 32))
    | 0x70 => some (w32 u.calIdx.toNat)
    | 0x80 => some (w32 u.envIdx.toNat)
    | 0x84 => some (w32 (e.eHi.toNat + e.eLo.toNat * 2 ^ 16))
    | 0x88 => some (w32 (e.accPair.1.toNat + e.accPair.2.toNat * 2 ^ 16))
    | 0x8C => some (w32 (e.ring.length + bitIf e.acc.isSome 8))
    | _ => none

/-- FWC mailbox (R292). -/
def Mb.rd (m : Mb) (o : Nat) : Option W32 :=
  if 0x10 ≤ o ∧ o < 0x40 then some (m.args.getD ((o - 0x10) / 4) 0)
  else if 0x40 ≤ o ∧ o < 0x60 then some (m.rargs.getD ((o - 0x40) / 4) 0)
  else if 0x90 ≤ o ∧ o < 0xC0 then some (w32 (fld m.imgHash ((o - 0x90) * 8) 32))
  else match o with
    | 0x00 => some 0
    | 0x04 => some m.status
    | 0x08 => some (w32 (m.rspStatus.toNat + m.rspTag.toNat * 2 ^ 8 + bitIf m.rspDone 31))
    | 0x60 => some m.hbCount
    | 0x78 => some m.noteSize
    | 0x80 => some m.noteRd
    | 0x84 => some (w32 (m.qlostE.toNat + m.qlostC.toNat * 2 ^ 16))
    | 0x88 => some m.noteLost
    | 0x8C => some (w32 (ofBytes m.krst))
    | _ => none

/-- Guestbook (R310). -/
def Gb.word (g : Gb) (o : Nat) : Option W32 :=
  match o with
  | 0x08 => some g.size
  | 0x10 => some g.rd
  | 0x14 => some g.stageLost
  | 0x18 => some g.mask
  | 0x1C => some g.hwqLost
  | _ => none

/-- Twin and snapshot (R287). -/
def Twin.rd (t : Twin) (o : Nat) : Option W32 :=
  match o with
  | 0x00 => some (w32 (bitIf t.mirrorEn 0 + bitIf t.takeoverEn 1))
  | 0x04 => some t.status
  | 0x08 => some t.probeTmo
  | 0x0C => some t.claimTmo
  | 0x18 => some t.takeoverNs
  | 0x1C => some t.resyncCnt
  | 0x28 => some t.snapStep
  | 0x2C => some t.snapBytes
  | _ => none

/-- Power and clock (R330). -/
def Part.rdPwr (s : Part) (o : Nat) : Option W32 :=
  let p := s.pwr
  match o with
  | 0x00 => some s.pwrStatus
  | 0x04 => some (w32 (p.inputs.word + bitIf p.ack 6))
  | 0x08 => some p.dpHold
  | 0x0C => some p.wsHold
  | 0x10 => some p.lgHold
  | 0x14 => some p.miscHold
  | 0x18 => some p.releaseTmo
  | 0x1C => some 0
  | 0x20 => some (w32 (p.cause.toNat + p.warmCnt.toNat * 2 ^ 8))
  | 0x24 => some (w32 (p.bootStep + bitIf p.laneFail 4 + bitIf p.joinFail 5 + bitIf p.identMissing 6))
  | 0x28 => some p.cfgDefaulted
  | 0x2C => some p.cfgAbsent
  | 0x30 => some p.laneTmo
  | 0x34 => some p.wakeCnt
  | _ => none

/-- Identity, global and interrupt groups (R334, R335, R338). -/
def Part.rdHead (s : Part) (off : Nat) : Option W32 :=
  match off with
  | 0x000 => some (w32 (0xA570 + Config.die.toNat * 2 ^ 24))
  | 0x004 => some 0x00000100
  | 0x008 => some 0x10408840
  | 0x00C => some 0x010CC000
  | 0x010 => some 0x303F07FF
  | 0x014 => some 0x0FF00FFF
  | 0x018 => some (secStatus s.sensed)
  | 0x100 => some (w32 s.glob.stepSrc.toNat)
  | 0x104 => some s.glob.status
  | 0x108 => some s.glob.step
  | 0x10C => some 0
  | 0x120 => some s.glob.errInfo
  | 0x124 => some s.glob.scratch
  | 0x200 => some s.irqStatus
  | 0x204 => some s.irq.enable
  | 0x208 => some 0
  | 0x20C => some s.irqPending
  | 0x228 => some (w32 (s.irq.seqHalt.toNat + s.irq.seqFault.toNat * 2 ^ 16))
  | 0x22C => some (w32 s.irq.cr.toNat)
  | 0x230 => some (w32 s.irq.ghDown.toNat)
  | _ => none

/-- Larder partitions (R340). -/
def Larder.rd (l : Larder) (o : Nat) : Option W32 :=
  if 0x100 ≤ o ∧ o < 0x200 then
    let p := (o - 0x100) / 0x10
    match o % 0x10 with
    | 0x0 => some (w32 (l.shown.floors.getD p 0))
    | 0x4 => some (w32 (l.shown.ceils.getD p 0))
    | 0x8 => some (w32 (l.occ.getD p 0))
    | _ => some (w32 (l.peak.getD p 0))
  else if 0x200 ≤ o ∧ o < 0x228 then some (l.shown.ownerWord ((o - 0x200) / 4))
  else match o with
    | 0x00 => some (w32 (b2n l.showActive))
    | 0x04 => some (w32 (bitIf l.partReject 0 + bitIf l.ueSeen 1 + bitIf (decide (l.pendingSet ≠ l.active)) 2))
    | 0x08 => some l.ceCnt
    | 0x0C => some l.ueCnt
    | 0x10 => some l.ueAddr
    | 0x14 => some (w32 (l.poolFree + (49152 - sumN l.active.floors) * 2 ^ 16))
    | 0x18 => some l.starveCnt
    | _ => none

/-- Registers of 32 bits, by group (R331). -/
def Part.rdOne (s : Part) (off : Nat) : Option W32 :=
  match seqOfOff off with
  | some (q, o) => (s.seq q).rd o
  | none =>
    if off < 0x300 then s.rdHead off
    else if off < 0x1000 then none
    else if off < 0x1300 then s.larder.rd (off - 0x1000)
    else if off < 0x4000 then none
    else if off < 0x8000 then s.rdDp ((off - 0x4000) / 0x100) (off % 0x100)
    else if off < 0xA000 then s.rdWs ((off - 0x8000) / 0x400) (off % 0x400)
    else if off < 0xB000 then s.rdGh (off - 0xA000)
    else if off < 0xC000 then s.rdCr (off - 0xB000)
    else if off < 0xC100 then s.rdSsu (off - 0xC000)
    else if off < 0xD000 then none
    else if off < 0xD100 then (if off = 0xD07C then some s.noteWr else s.mb.rd (off - 0xD000))
    else if off < 0xD200 then (if off = 0xD10C then some s.gbWr else s.gb.word (off - 0xD100))
    else if off < 0xD300 then s.twin.rd (off - 0xD200)
    else if off < 0xD400 then s.rdPwr (off - 0xD300)
    else none

/-- What an aligned offset reads as; none where it holds no register (R9). Before the first read of a low half, a high half reads as it
stands; a low half written and not yet in force reads back (R10). -/
def Part.regRead (s : Part) (off : Nat) : Option W32 :=
  if off % 4 ≠ 0 then none
  else match s.pairAt off with
    | some v => some ((tabFind s.glob.lowHold off).getD (w32 (fld v.2 0 32)))
    | none =>
      match (if off < 4 then none else s.pairAt (off - 4)) with
      | some v => some ((tabFind s.glob.latch off).getD (w32 (fld v.2 32 32)))
      | none => s.rdOne off

/-! ### What a read changes (R10 to R12, R332) -/

/-- RC registers read clear; a peak goes to the occupancy (R340). -/
def Part.rcClear (s : Part) (off : Nat) : Part :=
  match seqOfOff off with
  | some (q, o) => match o with
    | 0x20 => s.onSeq q fun x => { x with instrCnt := 0 }
    | 0x24 => s.onSeq q fun x => { x with wstoreErr := 0 }
    | _ => s
  | none =>
    if 0x1100 ≤ off ∧ off < 0x1200 ∧ off % 0x10 = 0xC then
      s.onLarder fun l => let p := (off - 0x1100) / 0x10; { l with peak := l.peak.set p (l.occ.getD p 0) }
    else if 0x4000 ≤ off ∧ off < 0x8000 then
      let n := (off - 0x4000) / 0x100
      match off % 0x100 with
      | 0x0C => s.onDp n fun p => { p with rejectCnt := 0 }
      | 0x10 => s.onDp n fun p => { p with errCnt := 0 }
      | 0x14 => s.onDp n fun p => { p with abortCnt := 0 }
      | 0x18 => s.onDp n fun p => { p with tileCnt := 0 }
      | _ => s
    else if 0x8000 ≤ off ∧ off < 0xA000 then
      let w := (off - 0x8000) / 0x400
      match off % 0x400 with
      | 0x44 => s.onWs w fun y => { y with replayCnt := 0 }
      | 0x48 => s.onWs w fun y => { y with replayDiscard := 0 }
      | 0x4C => s.onWs w fun y => { y with tetherBad := 0 }
      | 0x50 => s.onWs w fun y => { y with tetherLate := 0 }
      | _ => s
    else match off with
      | 0x1008 => s.onLarder fun l => { l with ceCnt := 0 }
      | 0x100C => s.onLarder fun l => { l with ueCnt := 0 }
      | 0x1018 => s.onLarder fun l => { l with starveCnt := 0 }
      | 0xA02C => s.onGh fun g => { g with retryCnt := 0 }
      | 0xA030 => s.onGh fun g => { g with badFlitCnt := 0 }
      | 0xA034 => s.onGh fun g => { g with quarCnt := 0 }
      | 0xA038 => s.onGh fun g => { g with holdCnt := 0 }
      | 0xA03C => s.onGh fun g => { g with nackRxCnt := 0 }
      | 0xA040 => s.onGh fun g => { g with ackLateCnt := 0 }
      | 0xA044 => s.onGh fun g => { g with msgDropCnt := 0 }
      | 0xB00C => s.onCr fun c => { c with lateCnt := 0 }
      | 0xB010 => s.onCr fun c => { c with epochDropCnt := 0 }
      | 0xC008 => s.onSsu fun u => { u with ledgerErrCnt := 0 }
      | 0xC00C => s.onSsu fun u => { u with calMiss := 0 }
      | 0xC010 => s.onSsu fun u => { u with wideRows := 0 }
      | 0xC014 => s.onSsu fun u => { u with lodgeTmoCnt := 0 }
      | 0xC018 => s.onSsu fun u => { u with lodgeLate := 0 }
      | 0xC01C => s.onSsu fun u => { u with misfitCnt := 0 }
      | 0xD084 => s.onMb fun m => { m with qlostE := 0, qlostC := 0 }
      | 0xD088 => s.onMb fun m => { m with noteLost := 0 }
      | 0xD114 => s.onGb fun g => { g with stageLost := 0 }
      | 0xD11C => s.onGb fun g => { g with hwqLost := 0 }
      | 0xD21C => s.onTwin fun t => { t with resyncCnt := 0 }
      | 0xD334 => s.onPwr fun p => { p with wakeCnt := 0 }
      | _ => s

/-- A read of a low half latches its high half (R12). -/
def Part.latchHigh (s : Part) (off : Nat) : Part :=
  match s.pairAt off with
  | some v => s.onGlob fun g => { g with latch := tabInsert g.latch (off + 4) (w32 (fld v.2 32 32)) }
  | none => s

/-- Read normally while the window is shut (R333). -/
def bootReadable (off : Nat) : Bool := decide (off = 0x104) || (decide (0xD300 ≤ off) && decide (off < 0xD400))

/-- A read of the window at an aligned offset: its data, and what it clears or latches. -/
def Part.windowRead (s : Part) (off : Nat) : W32 × Part :=
  if s.shut && !bootReadable off then (0, s)
  else match s.regRead off with
    | some v => (v, (s.latchHigh off).rcClear off)
    | none => (0, s)

/-! ### Writes -/

/-- Registers of one sequencer (R231). -/
def Part.wrSeq (s : Part) (q o : Nat) (v : W32) : Part :=
  match o with
  | 0x00 => s.seqCtrl q v
  | 0x08 => s.onSeq q fun x => { x with startPc := BitVec.ofNat 15 (fld v 0 15) }
  | 0x0C => s.onSeq q fun x => { x with lenReg := BitVec.ofNat 16 (fld v 0 16) }
  | _ => s

/-- WL_DP_CTRL (R161, R163): FENCE = 1 fences; UNFENCE acts with FENCE = 0, and while CORE_FAULT is high the whole write is ignored. -/
def Part.dpCtrl (s : Part) (n : Nat) (v : W32) : Part :=
  if bitOf v 0 then (s.onDp n fun p => { p with fenceBit := true }).fence n
  else if bitOf v 1 && (s.dp n).coreFault then s.unfence n
  else
    let s := s.onDp n fun p => { p with fenceBit := false }
    if bitOf v 1 then s.unfence n else s

/-- Drain ports (R143). -/
def Part.wrDp (s : Part) (n o : Nat) (v : W32) : Part :=
  if o < 0x40 then (if o = 0 then s.dpCtrl n v else s)
  else
    let k := o / 0x40 - 1
    match o % 0x40 with
    | 0x30 => s.onDp n fun p => p.onCtxK k fun c => { c with pitch := v &&& 0xFFFFFF#32 }
    | 0x34 => s.onDp n fun p => p.onCtxK k fun c => { c with cfg := v &&& 0xF#32 }
    | 0x38 => s.onDp n fun p => p.onCtxK k fun c => { c with resPitch := v &&& 0xFFFFFF#32 }
    | _ => s

/-- Larder partitions (R340, R341). -/
def Part.wrLarder (s : Part) (o : Nat) (v : W32) : Part :=
  s.onLarder fun l =>
    if 0x100 ≤ o ∧ o < 0x200 then
      let p := (o - 0x100) / 0x10
      match o % 0x10 with
      | 0x0 => { l with pendingSet := { l.pendingSet with floors := l.pendingSet.floors.set p (fld v 0 16) } }
      | 0x4 => { l with pendingSet := { l.pendingSet with ceils := l.pendingSet.ceils.set p (fld v 0 16) } }
      | _ => l
    else if 0x200 ≤ o ∧ o < 0x228 then { l with pendingSet := l.pendingSet.setOwners ((o - 0x200) / 4) v }
    else match o with
      | 0x00 => { l with showActive := bitOf v 0 }
      | 0x04 => { l with partReject := l.partReject && !bitOf v 0, ueSeen := l.ueSeen && !bitOf v 1 }
      | _ => l

/-- WL_GH_ROUTE_DATA (R194, R225). -/
def Part.routeData (s : Part) (v : W32) : Part :=
  s.onGh fun g => { g with routes := tabSet g.routes g.routeIdx.toNat (v &&& 0x1FF#32) 0, routeIdx := g.routeIdx + 1 }
/-- WL_GH_ROLE_DATA (R216, R225); the table is mirrored (R18). -/
def Part.roleData (s : Part) (v : W32) : Part :=
  let i := s.gh.roleIdx
  let e : W16 := BitVec.ofNat 16 (fld v 0 16)
  (s.onGh fun g => { g with roles := tabSet g.roles i.toNat e 0, roleIdx := i + 1 }).mirror (.roleEntry i e)

/-- Gatehouse (R225). -/
def Part.wrGh (s : Part) (o : Nat) (v : W32) : Part :=
  match o with
  | 0x00 => s.onGh fun g => { g with lgEn := BitVec.ofNat 8 (fld v 0 8) }
  | 0x08 => s.onGh fun g => { g with package := BitVec.ofNat 14 (fld v 2 14), side := bitOf v 16 }
  | 0x10 => s.onGh fun g => { g with epochP := some (BitVec.ofNat 16 (fld v 0 16), BitVec.ofNat 16 (fld v 16 16)) }
  | 0x14 => s.onGh fun g => { g with routeIdx := BitVec.ofNat 15 (fld v 0 15) }
  | 0x18 => s.routeData v
  | 0x1C => s.onGh fun g => { g with roleIdx := BitVec.ofNat 17 (fld v 0 17) }
  | 0x20 => s.roleData v
  | 0x24 => s.onGh fun g => { g with ackTmo := v }
  | 0x28 => s.onGh fun g => { g with msgTmo := v }
  | 0x48 => s.onGh fun g => { g with quarIdx := BitVec.ofNat 6 (fld v 0 6) }
  | _ => s

/-- WL_CR_CTRL (R26). -/
def Part.courierCtrl (s : Part) (v : W32) : Part := (s.onCr fun c => { c with en := bitOf v 0 }).courierWakes

/-- Courier (R225). -/
def Part.wrCr (s : Part) (o : Nat) (v : W32) : Part :=
  if 0x100 ≤ o ∧ o < 0x900 then
    let g := (o - 0x100) / 0x80
    let r := (o - 0x100) % 0x80
    if r < 0x40 then s.onCrg g fun c => { c with data := c.data.set (r / 4) v }
    else match r with
      | 0x44 => s.crIssueWord g v
      | 0x48 => s.onCrg g fun c => { c with rank := BitVec.ofNat 16 (fld v 0 16), msize := BitVec.ofNat 16 (fld v 16 16) }
      | 0x4C => s.onCrg g fun c => { c with cepoch := BitVec.ofNat 16 (fld v 0 16), bound := bitOf v 31 }
      | _ => s
  else match o with
    | 0x00 => s.courierCtrl v
    | 0x04 => s.onCr fun c => { c with budget := v }
    | _ => s

/-- The staging register of a stream entry is loaded (R346). -/
def Ssu.loadStream (u : Ssu) (i : BitVec 12) : Ssu :=
  { u with strIdx := i, strData := tabGet (if u.showActive then u.streams else u.streamsP) i.toNat .reset, strClear := false, strWideClr := false }
def Ssu.loadSign (u : Ssu) (i : BitVec 14) : Ssu :=
  { u with signIdx := i, signData := tabGet (if u.showActive then u.signs else u.signsP) i.toNat 0 }
def Ssu.loadCal (u : Ssu) (i : W16) : Ssu :=
  let c := tabGet (if u.showActive then u.cal else u.calP) i.toNat 0
  { u with calIdx := i, calLo := w32 (fld c 0 32), calHi := w32 (fld c 32 32) }

/-- WL_SSU_STR_COMMIT (R346). -/
def Part.streamCommit (s : Part) : Part :=
  let u := s.ssu
  if u.strData.reservedValue then s.accessErr 4 0xC024 true
  else
    let i := u.strIdx
    let s := s.onSsu fun u => { u with streamsP := tabSet u.streamsP i.toNat u.strData .reset }
    let s := s.askEnv i.toNat fun e => { e with clearReq := e.clearReq || u.strClear, wideClr := e.wideClr || u.strWideClr }
    s.onSsu fun u => u.loadStream (i + 1)

/-- WL_SSU_SIGN_DATA3 (R348). -/
def Part.signData3 (s : Part) (v : W32) : Part :=
  s.onSsu fun u =>
    let d := setFld u.signData 96 32 v.toNat
    let u := { u with signsP := tabSet u.signsP u.signIdx.toNat d 0 }
    u.loadSign (u.signIdx + 1)

/-- WL_SSU_CAL_HI (R133, R348). -/
def Part.calHi (s : Part) (v : W32) : Part :=
  let i := s.ssu.calIdx
  (s.calPlace i.toNat (BitVec.ofNat 64 (s.ssu.calLo.toNat + v.toNat * 2 ^ 32))).onSsu fun u => u.loadCal (i + 1)

/-- SSU and Envelope (R344 to R348). -/
def Part.wrSsu (s : Part) (o : Nat) (v : W32) : Part :=
  if 0x30 ≤ o ∧ o < 0x48 then
    let k := (o - 0x30) / 4
    s.onSsu fun u =>
      { u with
        strData := u.strData.setWord k v
        strClear := if k = 3 then bitOf v 16 else u.strClear
        strWideClr := if k = 3 then bitOf v 17 else u.strWideClr }
  else match o with
    | 0x00 => s.onSsu fun u => { u with ledgerErr := u.ledgerErr && !bitOf v 0, lodgeTmo := u.lodgeTmo && !bitOf v 1, misfit := u.misfit && !bitOf v 2 }
    | 0x04 => s.onSsu fun u => { u with tmo := v }
    | 0x20 => s.onSsu fun u => u.loadStream (BitVec.ofNat 12 (fld v 0 12))
    | 0x24 => s.streamCommit
    | 0x28 => s.onSsu fun u => { u with showActive := bitOf v 0 }
    | 0x50 => s.onSsu fun u => u.loadSign (BitVec.ofNat 14 (fld v 0 14))
    | 0x54 => s.onSsu fun u => { u with signData := setFld u.signData 0 32 v.toNat }
    | 0x58 => s.onSsu fun u => { u with signData := setFld u.signData 32 32 v.toNat }
    | 0x5C => s.onSsu fun u => { u with signData := setFld u.signData 64 32 v.toNat }
    | 0x60 => s.signData3 v
    | 0x70 => s.onSsu fun u => u.loadCal (BitVec.ofNat 16 (fld v 0 16))
    | 0x74 => s.onSsu fun u => { u with calLo := v }
    | 0x78 => s.calHi v
    | 0x80 => s.onSsu fun u => { u with envIdx := BitVec.ofNat 12 (fld v 0 12) }
    | _ => s

/-- FWC mailbox (R292). -/
def Part.wrMb (s : Part) (o : Nat) (v : W32) : Part :=
  if 0x10 ≤ o ∧ o < 0x40 then s.onMb fun m => { m with args := m.args.set ((o - 0x10) / 4) v }
  else match o with
    | 0x00 => s.doorbell v
    | 0x60 => s.heartbeat v
    | 0x78 => s.onMb fun m => { m with noteSize := v &&& 0x1F#32 }
    | 0x80 => s.onMb fun m => { m with noteRd := v }
    | _ => s

/-- Guestbook (R310). -/
def Part.wrGb (s : Part) (o : Nat) (v : W32) : Part :=
  match o with
  | 0x08 => (s.onGb fun g => { g with size := v &&& 0x1F#32 }).gbFlush
  | 0x10 => s.onGb fun g => { g with rd := v }
  | 0x18 => s.onGb fun g => { g with mask := v &&& 0x1FE#32 }
  | _ => s

/-- Twin (R287). -/
def Part.wrTwin (s : Part) (o : Nat) (v : W32) : Part :=
  s.onTwin fun t =>
    match o with
    | 0x00 => { t with mirrorEn := bitOf v 0, takeoverEn := bitOf v 1 }
    | 0x08 => { t with probeTmo := v }
    | 0x0C => { t with claimTmo := v }
    | _ => t

/-- Power and clock (R330). -/
def Part.wrPwr (s : Part) (o : Nat) (v : W32) : Part :=
  match o with
  | 0x08 => s.onPwr fun p => { p with dpHold := v }
  | 0x0C => s.onPwr fun p => { p with wsHold := v }
  | 0x10 => s.onPwr fun p => { p with lgHold := v }
  | 0x14 => s.onPwr fun p => { p with miscHold := v }
  | 0x18 => s.onPwr fun p => { p with releaseTmo := v }
  | 0x1C => s.resetWord v
  | 0x30 => s.onPwr fun p => { p with laneTmo := v }
  | _ => s

/-- WL_IRQ_SET (R338): direct causes only. -/
def Part.irqSet (s : Part) (v : W32) : Part :=
  s.onIrq fun i =>
    { i with mailbox := i.mailbox || bitOf v 9, twin := i.twin || bitOf v 11, pwr := i.pwr || bitOf v 12, fatal := i.fatal || bitOf v 13 }

/-- Clear one half of a W1C pair. -/
def clearHalf (x : W64) (v : W32) (hi : Bool) : W64 := clearBits x (BitVec.ofNat 64 (v.toNat * (if hi then 2 ^ 32 else 1)))

/-- Identity, global and interrupt groups (R334 to R339). -/
def Part.wrHead (s : Part) (off : Nat) (v : W32) : Part :=
  match off with
  | 0x100 => s.stepSource v
  | 0x104 => s.onGlob fun g => { g with accessErr := g.accessErr && !bitOf v 1, tbSlip := g.tbSlip && !bitOf v 2, tbLost := g.tbLost && !bitOf v 3 }
  | 0x10C => s.hostMark v
  | 0x124 => s.onGlob fun g => { g with scratch := v }
  | 0x200 => s.onIrq fun i =>
      { i with mailbox := i.mailbox && !bitOf v 9, twin := i.twin && !bitOf v 11, pwr := i.pwr && !bitOf v 12, fatal := i.fatal && !bitOf v 13 }
  | 0x204 => s.onIrq fun i => { i with enable := v &&& 0xFFFF#32 }
  | 0x208 => s.irqSet v
  | 0x210 => s.onIrq fun i => { i with dpErr := clearHalf i.dpErr v false }
  | 0x214 => s.onIrq fun i => { i with dpErr := clearHalf i.dpErr v true }
  | 0x218 => s.onIrq fun i => { i with dpRej := clearHalf i.dpRej v false }
  | 0x21C => s.onIrq fun i => { i with dpRej := clearHalf i.dpRej v true }
  | 0x220 => s.onIrq fun i => { i with dpFence := clearHalf i.dpFence v false }
  | 0x224 => s.onIrq fun i => { i with dpFence := clearHalf i.dpFence v true }
  | 0x228 => s.onIrq fun i =>
      { i with seqHalt := clearBits i.seqHalt (BitVec.ofNat 9 (fld v 0 9)), seqFault := clearBits i.seqFault (BitVec.ofNat 9 (fld v 16 9)) }
  | 0x22C => s.onIrq fun i => { i with cr := clearBits i.cr (BitVec.ofNat 16 (fld v 0 16)) }
  | 0x230 => s.onIrq fun i => { i with ghDown := clearBits i.ghDown (BitVec.ofNat 8 (fld v 0 8)) }
  | _ => s

/-- A write at an offset that holds a register: read-only registers ignore it (R10). -/
def Part.wrOne (s : Part) (off : Nat) (v : W32) : Part :=
  match seqOfOff off with
  | some (q, o) => s.wrSeq q o v
  | none =>
    if off < 0x300 then s.wrHead off v
    else if off < 0x1300 then s.wrLarder (off - 0x1000) v
    else if off < 0x8000 then s.wrDp ((off - 0x4000) / 0x100) (off % 0x100) v
    else if off < 0xA000 then (if off % 0x400 = 0x40 then s.onWs ((off - 0x8000) / 0x400) fun y => { y with stallTmo := v } else s)
    else if off < 0xB000 then s.wrGh (off - 0xA000) v
    else if off < 0xC000 then s.wrCr (off - 0xB000) v
    else if off < 0xC100 then s.wrSsu (off - 0xC000) v
    else if off < 0xD100 then s.wrMb (off - 0xD000) v
    else if off < 0xD200 then s.wrGb (off - 0xD100) v
    else if off < 0xD300 then s.wrTwin (off - 0xD200) v
    else s.wrPwr (off - 0xD300) v

/-- A write of a register at an offset that holds one (R10, R12): a low half waits for its high half. -/
def Part.regWrite (s : Part) (off : Nat) (v : W32) : Part :=
  match s.pairAt off with
  | some (true, _) => s.onGlob fun g => { g with lowHold := tabInsert g.lowHold off (v &&& pairLow off) }
  | _ =>
    match (if off < 4 then none else s.pairAt (off - 4)) with
    | some (true, x) =>
      let lo := (tabFind s.glob.lowHold (off - 4)).getD (w32 (fld x 0 32))
      (s.onGlob fun g => { g with lowHold := tabErase g.lowHold (off - 4) }).setPair (off - 4) (BitVec.ofNat 64 (lo.toNat + v.toNat * 2 ^ 32))
    | _ => s.wrOne off v

/-- A write of the window (R8, R9, R333). -/
def Part.windowWrite (s : Part) (off : Nat) (v : W32) : Part :=
  if s.shut then s
  else if off % 4 ≠ 0 then s.accessErr 0 off true
  else if (s.regRead off).isSome then s.regWrite off v
  else s.accessErr 1 off true

end Sys2Proof.Machine
end

