-- ==== Sys2Proof/Machine/Firmware.lean ====
section
/-! DEFINITION. The firmware complex as the mailbox shows it: image checks (R297, R298), configuration blocks (R322 to R324), the kernel
start (R299, R320), Keeper restarts and activations (R300 to R303), deferral by an emergency (R304, R305). -/

namespace Sys2Proof.Machine

/-! ### Containers (R297, R298) -/

def leAt (c : List Byte) (at0 n : Nat) : Nat := ofBytes (slice c at0 n)

def comps (c : List Byte) : List Comp :=
  (List.range (leAt c 0x0D 1)).map fun i =>
    let b := 0x40 + 32 * i
    ⟨leAt c b 1, leAt c (b + 4) 4, leAt c (b + 8) 4, leAt c (b + 12) 4, leAt c (b + 16) 4⟩

/-- Two ranges have a byte in common. -/
def overlap (a la b lb : Nat) : Bool := decide (a < b + lb) && decide (b < a + la) && decide (0 < la) && decide (0 < lb)
/-- No two components share bytes of the container or of the bank. -/
def compsApart : List Comp → Bool
  | [] => true
  | x :: xs => xs.all (fun y => !overlap x.off x.len y.off y.len && !overlap x.load (x.len + x.zero) y.load (y.len + y.zero)) && compsApart xs

/-- Step 1 of R298. -/
def formatOk (c : List Byte) : Bool :=
  let n := leAt c 8 4
  let k := leAt c 0x0D 1
  decide (leAt c 0 4 = 0x31505A42) && decide (leAt c 4 2 = 1) && decide (516 ≤ n) && decide (n ≤ c.length) && decide (1 ≤ k) && decide (k ≤ 8)
    && (comps c).all (fun x => decide (512 ≤ x.off) && decide (x.off + x.len ≤ n - 4) && decide (x.load + x.len + x.zero ≤ 2097152))
    && compsApart (comps c)

/-- The image digest D (R297). -/
def imageDigestBytes (c : List Byte) : List Byte := sha384 (c.take 0x140 ++ (c.take (leAt c 8 4 - 4)).drop 0x200)
/-- D as WL_MB_IMG_HASH holds it: its byte 0 in the lowest place (R4, R292). -/
def imageDigest (c : List Byte) : BitVec 384 := BitVec.ofNat 384 (ofBytes (imageDigestBytes c))

/-- The fused minimum SVN (R328). -/
def svnMin (f : BitVec 2048) : Nat := ((List.range 128).filter fun i => bitOf f (1540 + i)).length

/-- R298: status and failing step, 0 and 0 where every step passes. -/
def verify (f : BitVec 2048) (c : List Byte) : Nat × Nat :=
  let n := leAt c 8 4
  let k := leAt c 0x0C 1
  if !formatOk c then (5, 1)
  else if (crc32c (c.take (n - 4))).toNat ≠ leAt c (n - 4) 4 then (6, 2)
  else if bitOf f 1668 then (0, 0)
  else if 3 < k || ofBytes (sha384 (slice c 0x140 96)) ≠ fld f (384 * k) 384 || bitOf f (1536 + k) then (7, 3)
  else if leAt c 6 2 < svnMin f then (8, 4)
  else if !ecdsaValid (slice c 0x1A0 96) (imageDigestBytes c) (slice c 0x140 96) then (9, 5)
  else (0, 0)

/-- What enters a bank (R297, R299). -/
def imageOf (c : List Byte) : Image :=
  { svn := BitVec.ofNat 16 (leAt c 6 2), rlayout := BitVec.ofNat 16 (leAt c 0x0E 2), build := BitVec.ofNat 64 (leAt c 0x10 8),
    keySlot := BitVec.ofNat 8 (leAt c 0x0C 1), digest := imageDigest c
    placed := (comps c).map fun x => (x, slice c x.off x.len) }

/-- The component data of Keeper k as an image gives it (R289, R301): the bytes of the component whose ID is k + 1. -/
def Image.dataOf (i : Image) (k : Nat) : List Byte := (((i.placed.find? fun x => decide (x.1.id = k + 1)).map Prod.snd).getD [])

/-- The verifier's entries (R298, R312, R329). -/
def Part.logVerify (s : Part) (src : Nat) (c : List Byte) (r : Nat × Nat) : Part :=
  if r.1 ≠ 0 then s.guest src 3 0x0102 [w32 r.1, w32 r.2]
  else
    let i := imageOf c
    let s := if bitOf s.sensed 1668 then (s.onMb fun m => { m with debugUnlocked := true }).guest src 2 0x0103 [] else s
    s.guest src 1 0x0101 [w32 (fld i.build 0 32), w32 i.svn.toNat, w32 i.keySlot.toNat]

/-! ### Configuration blocks (R322 to R324) -/

/-- The blocks of the list: ID and bytes, each from the next 64 B boundary. -/
def cfgBlocks : Nat → List Byte → List (Nat × List Byte)
  | 0, _ => []
  | n + 1, bs =>
    let id := leAt bs 0 1
    let total := 16 + leAt bs 4 4 + 4
    if bs.length < 16 || id = 0 then [] else (id, bs.take total) :: cfgBlocks n (bs.drop ((total + 63) / 64 * 64))

/-- The entries of a block that passes its header and check word. -/
def cfgEntries (b : List Byte) : Option (List Nat) :=
  let len := leAt b 4 4
  if decide (16384 < len) || decide (len % 8 ≠ 0) || decide (b.length ≠ 20 + len) || decide (leAt b 1 1 ≠ 1) || decide (leAt b 2 2 ≠ 0)
    || decide (leAt b 8 8 ≠ 0) || decide ((crc32c (b.take (16 + len))).toNat ≠ leAt b (16 + len) 4) then none
  else some ((List.range (len / 8)).map fun i => leAt b (16 + 8 * i) 8)

/-- Registers that a block may write (R323). -/
def cfgGroup (id off : Nat) : Bool :=
  let within (a b : Nat) : Bool := decide (a ≤ off) && decide (off < b)
  match id with
  | 1 => off == 0xA008
  | 2 => within 0x1000 0x1300
  | 3 => within 0xA014 0xA01C
  | 4 => off == 0xA000 || within 0xA024 0xA02C || within 0xA100 0xA300
  | 5 => within 0xD200 0xD300
  | 6 => off == 0xC004 || within 0xC020 0xC028 || within 0xC030 0xC064
  | 7 => within 0xB000 0xB008
  | 8 => within 0xD300 0xD400
  | 10 => within 0xD100 0xD200 || within 0xD070 0xD084 || off == 0xD088
  | 11 => off == 0x100 || (within 0x8000 0xA000 && off % 0x400 == 0x40)
  | _ => false

/-- Every entry of a block is good (R324). -/
def Part.cfgOk (s : Part) (id : Nat) (es : List Nat) : Bool :=
  es.all fun e =>
    if id = 9 then decide (e / 2 ^ 16 % 2 ^ 16 = 0) && decide (e / 2 ^ 49 = 0)
    else decide (e / 2 ^ 20 % 2 ^ 12 = 0) && cfgGroup id (e % 2 ^ 20) && (s.regRead (e % 2 ^ 20)).isSome

/-- The stream entries and the sign store take effect at once in step 8, and so do ENV_CLEAR and WIDE_CLR (R324, R128, R136). -/
def Ssu.now (u : Ssu) : Ssu :=
  let clear (v : Env) : Env :=
    let v := if v.clearReq then { v.emptied with clearReq := false } else v
    if v.wideClr then { v with wide := false, misfitEntry := none, misfitFc := false, wideClr := false } else v
  { u with
    streams := u.streamsP
    signs := u.signsP
    envs := u.streamsP.foldl (fun t e => tabMod t e.1 .reset fun v => { v with kEff := e.2.envK.toNat + 1 })
      (u.envs.foldl (fun t e => tabMod t e.1 .reset clear) u.envs) }

/-- A start-up group gets its slot (R326). -/
def Part.addJoin (s : Part) (e : Nat) : Part :=
  match s.freeSlot with
  | some k => s.onPwr fun p => { p with joins := p.joins ++ [(BitVec.ofNat 16 e, BitVec.ofNat 17 (e / 2 ^ 32), k, 0)] }
  | none => s.onPwr fun p => { p with joinFail := true }

/-- A good block is applied, in list order and at once. A reset that it asks for (WL_PWR_RESET, R319) ends step 8. -/
def Part.cfgApply (s : Part) (id : Nat) (es : List Nat) : Part :=
  if id = 9 then s.each es Part.addJoin
  else
    let s := s.each es fun s e => if s.pwr.bootStep = 8 then s.regWrite (e % 2 ^ 20) (w32 (e / 2 ^ 32)) else s
    if s.pwr.bootStep ≠ 8 then s
    else if id = 2 then (s.onLarder Larder.mark).mirrorCredits
    else if id = 6 then
      let changed := s.ssu.streamsP.filter fun e => decide (s.stream e.1 ≠ e.2)
      let s := s.each changed fun s e => s.mirror (.streamEntry (Fin.ofNat 4096 e.1) e.2)
      (s.onSsu Ssu.now).each s.ssu.envs fun s e => s.mirrorEnv e.1
    else if id = 11 then s.onGlob fun g => { g with stepSrcEff := g.stepSrc }
    else s

/-- One block of R323 by its ID, from the first copy in the list. -/
def Part.cfgBlock (s : Part) (bs : List (Nat × List Byte)) (id : Nat) : Part :=
  let fails (s : Part) (absent : Bool) : Part :=
    let s := if id = 2 then (s.onLarder fun l => { l with active := .reset, pendingSet := .reset }).mirrorCredits else s
    (s.onPwr fun p =>
      { p with
        cfgDefaulted := setBitAt p.cfgDefaulted id
        cfgAbsent := if absent then setBitAt p.cfgAbsent id else p.cfgAbsent
        identMissing := p.identMissing || decide (id = 1) }).guest 0 2 0x0802 [w32 id]
  match bs.find? fun b => decide (b.1 = id) with
  | none => fails s true
  | some b =>
    match cfgEntries b.2 with
    | none => fails s false
    | some es => if s.cfgOk id es then s.cfgApply id es else fails s false

/-- Steps 8 to 11 (R320), once the blocks have been read: the eleven blocks, then lanes and joins; a reset by a block starts anew. Without an identity both are skipped (R323); the groups of block 0x09 stay
unjoined, with their slots free and JOIN_FAIL set (R326). -/
def Part.configure (s : Part) (bytes : List Byte) : Part :=
  let bs := cfgBlocks 1024 (bytes.take 65536)
  let s := s.each ((List.range 11).map (· + 1)) fun s id => if s.pwr.bootStep = 8 then s.cfgBlock bs id else s
  if s.pwr.bootStep ≠ 8 then s
  else if s.pwr.identMissing then (s.onPwr fun p => { p with joins := [], joinFail := p.joinFail || !p.joins.isEmpty }).bootReady else s.bootLanes

/-! ### Heartbeat expiry (R306, R307, R309) -/

/-- The response to an expired heartbeat, for which K3's domain wakes (R313): DRAINING until the next step mark, or straight to the Harbour while PARKED. -/
def Part.hbExpire (s : Part) : Part :=
  let s := (s.wake .fwc).guest 3 2 0x0206 [s.mb.hbCount]
  if s.mb.parked then s.toHarbour false
  else s.onMb fun m => { m with st := 4, drainAt := m.hbLast + 200000000 }

/-! ### Keepers come back (R291, R301, R302) -/

/-- What waited for a Keeper is taken up. -/
def Part.keeperBack (s : Part) (k : Nat) : Part :=
  if !s.mb.runs k then s else
  match k with
  | 0 =>
    let q := s.mb.ctlq
    let r := s.gh.roleLate
    let s := (s.onMb fun m => { m with ctlq := [] }).onGh fun g => { g with roleLate := [] }
    let s := s.each r fun s e => (s.onGh fun g => { g with roles := tabSet g.roles e.1.toNat e.2 0 }).mirror (.roleEntry e.1 e.2)
    let s := if s.mb.dropsLate then (s.onMb fun m => { m with dropsLate := false }).harbourDrops else s
    (s.each q Part.k0).sendLate.lanesDue.lanesDone
  | 1 =>
    let q := s.mb.k1q
    let h := s.mb.harbourLate
    let late := s.mb.harbourq
    let s := s.onMb fun m => { m with k1q := [], harbourq := [], harbourLate := none }
    let s := s.each q fun s e => if e.1 = 0#8 then s else s.noteWrite e.1 (BitVec.ofNat 16 (e.2.1.toNat + e.2.2.1.toNat * 2 ^ 8)) e.2.2.2
    let s := match h with | some cut => if s.mb.st = 6#4 then s else s.enterHarbour cut | none => s
    s.each late fun s e => s.chunkAccept e.1 e.2 none
  | 3 =>
    let q := s.mb.traceq
    let late := s.mb.hbLatched
    let s := s.onMb fun m => { m with traceq := [], hbLatched := false }
    let s := s.gbFlush.each q Part.guestWrite
    if late && decide (s.mb.st = 3#4) then s.hbExpire else s
  | _ => s

/-- Component data come from the bank a Keeper runs from (R289, R301 step 2). -/
def Mb.initData (m : Mb) (k : Nat) : Mb :=
  { m with compData := tabInsert m.compData k (((if m.keeperBank.getD k false then m.bankB else m.bankA).map fun i => i.dataOf k).getD []) }

/-- The kernel runs on all four Keepers (R299): STATE RUNNING ends step 7, and step 8 begins (R320): the blocks are read from the work area
through Gatehouse NoC port 0 (R322). -/
def Part.kernelStart (s : Part) : Part :=
  let s := s.onMb fun m =>
    [0, 1, 2, 3].foldl Mb.initData
      { m with
        st := 3
        keeperUp := 0xF
        keeperBank := [false, false, false, false]
        target := false
        configBytes := none
        imgHash := match m.bankA with | some i => i.digest | none => 0 }
  let s := s.onPwr fun p => { p with bootStep := 8 }
  let s := s.each [0, 1, 2, 3] Part.keeperBack
  let o := s.mb.workOff.toNat
  s.nocRead 8 (o / 64 * 64) ((o % 64 + 65536 + 63) / 64 * 64) (.config (o % 64))

/-! ### Restarts and activations (R300 to R305) -/

def Mb.image (m : Mb) (b : Bool) : Option Image := if b then m.bankB else m.bankA

/-- The command that asked for an activation ends with DEFERRED (R305); the restarts it asked for have no command any more. -/
def Part.endDeferred (s : Part) : Part :=
  match s.mb.run with
  | some r => (s.onMb fun m => { m with actAsked := false, restarting := m.restarting.map fun x => (x.1, x.2.1, false) }).mbEnd r.tag 0x0A []
  | none => s

/-- An activation is deferred (R305); `asked`: by the command in hand. -/
def Part.defer (s : Part) (mask : BitVec 4) (kernel activate asked : Bool) : Part :=
  let t := s.now
  let s := s.onMb fun m =>
    { m with actPending := true, deferred := m.deferred ++ [{ mask := mask, kernel := kernel, activate := activate, since := t }] }
  let s := s.guest 0 2 0x0204 [w32 mask.toNat]
  if asked then s.endDeferred else s

/-- Keeper k is among those deferred. -/
def Mb.isDeferred (m : Mb) (k : Nat) : Bool := m.deferred.any fun d => bitOf d.mask k

/-- A Keeper is halted for its restart (R301 step 1); in an emergency it stays halted (R305). -/
def Part.haltKeeper (s : Part) (k cause : Nat) (asked : Bool) : Part :=
  let s := s.onMb fun m =>
    { m with
      keeperUp := clearBits m.keeperUp (BitVec.ofNat 4 (2 ^ k))
      krst := m.krst.set k (BitVec.ofNat 8 (satN 8 (m.krst.getD k 0).toNat 1))
      restarting := tabInsert m.restarting k (cause, asked) }
  if s.mb.emerg then s.defer (BitVec.ofNat 4 (2 ^ k)) false (decide (cause = 3)) asked else s

/-- The next Keeper of an ACTIVATE is switched; after the last the note ACT_DONE (R300). -/
def Part.nextSwitch (s : Part) : Part :=
  match s.mb.toSwitch with
  | k :: rest => (s.onMb fun m => { m with toSwitch := rest }).haltKeeper k 3 s.mb.actAsked
  | [] =>
    let s := s.onMb fun m =>
      { m with
        actAsked := false
        imgHash := if m.keeperBank.all (· == m.target) then (match m.image m.target with | some i => i.digest | none => m.imgHash) else m.imgHash }
    s.note 8 (BitVec.ofNat 16 s.mb.actMask.toNat) 0

/-- An ACTIVATE begins. -/
def Part.switchKeepers (s : Part) (mask : Nat) : Part :=
  let l := [3, 2, 1, 0].filter fun k => mask.testBit k && s.mb.keeperBank.getD k false != s.mb.target
  let s := s.onMb fun m => { m with toSwitch := l, actMask := BitVec.ofNat 4 mask, actAsked := true }
  if s.mb.emerg then s.defer (BitVec.ofNat 4 mask) false true true else s.nextSwitch

/-- A restart under R303: a third within 1 s of the first leaves the Keeper halted and the instance FAILED; no ACTIVATE switches it any
more, and the kernel writes the note itself, whether K1 is up or not. -/
def Part.restartFor (s : Part) (k cause : Nat) : Part :=
  let t := s.now
  let w := match tabFind s.mb.rstWin k with
    | some w => if s.ended w.1 1000000000 then (t, 1) else (w.1, w.2 + 1)
    | none => (t, 1)
  let s := s.onMb fun m => { m with rstWin := tabInsert m.rstWin k w }
  if w.2 < 3 then s.haltKeeper k cause false
  else
    let s := s.onMb fun m =>
      { m with keeperUp := clearBits m.keeperUp (BitVec.ofNat 4 (2 ^ k)), toSwitch := m.toSwitch.filter (fun x => x ≠ k), st := 6 }
    let s := s.onIrq fun i => { i with fatal := true }
    (s.noteWrite 11 (BitVec.ofNat 16 k) (w32 cause)).guest 0 4 0x0209 [w32 k]

/-- The retained areas of a Keeper are cleared (R301 step 3): K0's groups and joins, of which the twin is told, the joins failed (R326); K1's last Tether blocks; K3's
staging. K2 retains nothing that the manual names (DEDUCED, log entry 41). -/
def Part.clearRetained (s : Part) (k : Nat) : Part :=
  match k with
  | 0 =>
    let gs := s.groups
    let s := ({ s with groups := [] } : Part).onPwr fun p => { p with joins := [], joinFail := p.joinFail || !p.joins.isEmpty }
    (s.each gs fun s g => if g.2.manager || (g.2.rank.isSome && !g.2.ofTwin) then s.mirror (.membershipGone g.2.img.group) else s).joinsDone
  | 1 => { s with groups := s.groups.map fun g => (g.1, { g.2 with lastBlk := none }) }
  | 3 => s.onGb fun g => { g with staged := [] }
  | _ => s

/-- A restart ends (R301 steps 2 to 4). -/
def Part.restartDone (s : Part) (k cause : Nat) (crcOk : Bool) : Part :=
  let s := s.onMb fun m =>
    { m with
      restarting := tabErase m.restarting k
      keeperUp := setBitAt m.keeperUp k
      keeperBank := if cause = 3 then m.keeperBank.set k m.target else m.keeperBank }
  let s := s.onMb fun m => m.initData k
  let s := if crcOk then s else (s.clearRetained k).guest 0 3 0x0203 [w32 k]
  let s := (s.guest 0 1 0x0201 [w32 k, w32 cause]).keeperBack k
  if cause = 3 then s.nextSwitch else s

/-- EMERG falls (R305): what was deferred proceeds where its window has not ended. -/
def Part.undefer (s : Part) : Part :=
  let go := s.mb.deferred.filter fun d => !s.ended d.since 30000000000
  let s := s.onMb fun m =>
    let rest := m.deferred.filter fun d => !go.contains d
    { m with deferred := rest, actPending := !rest.isEmpty }
  s.each go fun s d =>
    if d.kernel then s.kernelStart
    else if d.activate && s.mb.restarting.all fun r => decide (r.2.1 ≠ 3) then s.nextSwitch
    else s

/-- An emergency is recognised (R305): activations that have not committed are deferred, those of one ACTIVATE together and every other
restart by itself. -/
def Part.emergency (s : Part) : Part :=
  let fresh := s.mb.restarting.filter fun r => !s.mb.isDeferred r.1
  let sw := fresh.filter fun r => decide (r.2.1 = 3)
  let s := s.each (fresh.filter fun r => decide (r.2.1 ≠ 3)) fun s r => s.defer (BitVec.ofNat 4 (2 ^ r.1)) false false r.2.2
  if sw.isEmpty && (s.mb.toSwitch.isEmpty || s.mb.deferred.any (·.activate)) then s
  else s.defer ((sw.map Prod.fst ++ s.mb.toSwitch).foldl (fun a k => a ||| BitVec.ofNat 4 (2 ^ k)) 0#4) false true s.mb.actAsked

/-! ### Taking a command (R293, R294) -/

/-- The firmware takes a command: the row stands for its doorbell where none waits; a busy mailbox refuses it; in the wrong STATE it ends
with STATE; while a Keeper it needs is down it waits, below STATE RUNNING while K0, which the boot ROM runs on, is halted (R320, R327). -/
def Part.mbTake (s : Part) (opc tag : Byte) (allowed : Bool) (need : List Nat) (body : Part → Part) : Part :=
  if s.shut then s
  else if s.mb.busy && decide (s.mb.doorbell ≠ some (opc, tag)) then s.accessErr 2 0xD000 true
  else
    let s := (s.onMb fun m => { m with busy := true, rspDone := false, doorbell := some (opc, tag) }).wake .fwc
    if !allowed then s.mbEnd tag 3 []
    else if (if 3 ≤ s.mb.st.toNat then need.any (fun k => !s.mb.runs k) else bitOf s.mb.halted 0) then s
    else body (s.onMb fun m => { m with doorbell := none })

/-- A command that goes on until MAILBOX_COMMAND_END. -/
def Part.mbRun (s : Part) (opc tag : Byte) (rargs : List W32) : Part :=
  s.onMb fun m => { m with run := some { opc := opc, tag := tag, status := 0, rargs := rargs, load := none } }

end Sys2Proof.Machine
end

