-- ==== Sys2Proof/Machine/FirmwareCommands.lean ====
section
/-! DEFINITION. The commands of the mailbox and the Keepers (R288 to R310). -/

namespace Sys2Proof.Machine

/-- HEARTBEAT_EXPIRY (R302, R306, R309): 200 ms without a heartbeat. -/
def doHeartbeatExpiry (s : Part) : Part :=
  if s.mb.hbArmed && s.ended s.mb.hbLast 200000000 then
    let s := s.onMb fun m => { m with hbArmed := false }
    if s.mb.st ≠ 3#4 then s.settle
    else if !s.mb.runs 3 then (s.onMb fun m => { m with hbLatched := true }).settle
    else s.hbExpire.settle
  else s.settle
def execHeartbeatExpiry (s : State) : Result := s.run doHeartbeatExpiry

/-- DRAIN_TIMEOUT (R307): no step mark within 1 s. -/
def doDrainTimeout (s : Part) : Part := (s.drainOver s.now).settle
def execDrainTimeout (s : State) : Result := s.run doDrainTimeout

/-- A container is copied through Gatehouse NoC port 0 (R299), in whole lines (R50). -/
def Part.copyImage (s : Part) (tag : Byte) (off : W64) (len : W32) (work : WorkArea) : Part :=
  let o := (off47 off).toNat
  let n := len.toNat
  let l : Loading := { container := if n = 0 then some [] else none, workOff := off47 work.off, workLen := work.len }
  let s := s.onMb fun m => { m with run := some { opc := 0x01, tag := tag, status := 0, rargs := [], load := some l } }
  if n = 0 then s else s.nocRead 8 (o / 64 * 64) ((o % 64 + n + 63) / 64 * 64) (.image (o % 64) n)

/-- The first image is verified (R299, R320 steps 6 to 8): a failed check returns to step 4; else the kernel starts and the command ends; an
emergency defers the start (R305). -/
def Part.checkImage (s : Part) (tag : Byte) (l : Loading) (c : List Byte) : Part :=
  let r := verify s.sensed c
  let s := s.logVerify 4 c r
  if r.1 ≠ 0 then ((s.onMb fun m => { m with st := 1 }).mbEnd tag (BitVec.ofNat 8 r.1) []).onPwr fun p => { p with bootStep := 4 }
  else
    let i := imageOf c
    let s := (s.onPwr fun p => { p with bootStep := 7 }).onMb fun m =>
      { m with bankA := some i, imgHash := i.digest, workOff := l.workOff, workLen := l.workLen }
    if s.mb.emerg then s.defer 0xF true false true else s.kernelStart.mbEnd tag 0 []

/-- A Keeper still runs from the bank that a new image would enter (R300). -/
def Mb.staged (m : Mb) : Bool := m.keeperBank.any (· != m.keeperBank.getD 0 false)

/-- A container copied in RUNNING is verified and enters the staging bank (R300). -/
def Part.stageImage (s : Part) (tag : Byte) (c : List Byte) : Part :=
  let b := s.mb.keeperBank.getD 0 false
  let r := verify s.sensed c
  let s := s.logVerify 0 c r
  if r.1 ≠ 0 then s.mbEnd tag (BitVec.ofNat 8 r.1) []
  else
    let i := some (imageOf c)
    (s.onMb fun m => { m with target := !b, bankA := if b then i else m.bankA, bankB := if b then m.bankB else i }).mbEnd tag 0 []

/-- LOAD_IMAGE (R294, R299, R300, R320 step 5): the copy begins, in WAIT_IMAGE in STATE CHECKING; one into a bank that still serves a Keeper is
refused. -/
def doLoadImage (tag : Byte) (off : W64) (len : W32) (work : WorkArea) (s : Part) : Part :=
  (s.mbTake 0x01 tag (s.mb.st = 1#4 || s.mb.st = 3#4) [] fun s =>
    if work.len.toNat < 40 || 2097152 < len.toNat then s.mbEnd tag 2 []
    else if s.mb.st = 1#4 then ((s.onPwr fun p => { p with bootStep := 5 }).onMb fun m => { m with st := 2 }).copyImage tag off len work
    else if s.mb.staged then s.mbEnd tag 3 []
    else s.copyImage tag off len work).settle
def execLoadImage (tag : Byte) (off : W64) (len : W32) (work : WorkArea) (s : State) : Result := s.run (doLoadImage tag off len work)

/-- The retained layouts of the staged and the active image differ (R300). -/
def Mb.layoutDiffers (m : Mb) : Bool :=
  match m.image m.target, m.image (!m.target) with
  | some i, some j => m.keeperBank.any (· != m.target) && decide (i.rlayout ≠ j.rlayout)
  | _, _ => false

/-- ACTIVATE (R300, R305). -/
def doActivate (tag : Byte) (mask : W32) (s : Part) : Part :=
  (s.mbTake 0x02 tag (s.mb.st = 3#4) [] fun s =>
    if mask = 0#32 || 0xF < mask.toNat then s.mbEnd tag 2 []
    else if s.mb.layoutDiffers then s.mbEnd tag 0x0B []
    else (s.mbRun 0x02 tag []).switchKeepers mask.toNat).settle
def execActivate (tag : Byte) (mask : W32) (s : State) : Result := s.run (doActivate tag mask)

/-- RESTART_KEEPER (R301): the Keeper is halted; its end is KEEPER_RESTART_DONE. -/
def doRestartKeeper (tag : Byte) (keeper : W32) (s : Part) : Part :=
  let k := keeper.toNat
  (s.mbTake 0x03 tag (s.mb.st = 3#4) (if (tabFind s.mb.restarting k).isSome then [k] else []) fun s =>
    if 3 < k then s.mbEnd tag 2 [] else (s.mbRun 0x03 tag []).haltKeeper k 0 true).settle
def execRestartKeeper (tag : Byte) (keeper : W32) (s : State) : Result := s.run (doRestartKeeper tag keeper)

/-- A group held with its manager role frozen is formed anew (R37). -/
def Part.holdsLive (s : Part) (n : Nat) : Bool := match s.group n with | some g => !g.frozen | none => false

/-- R36, R164: a group that the limits refuse. -/
def Part.overLimit (s : Part) (img : GroupImage) (manager courierOnly : Bool) : Bool :=
  decide (img.members.length > if courierOnly then 65536 else 65535) || (!courierOnly && decide (65535 < img.weight))
    || ((img.rankOf s.ownId).isSome && s.membershipsFull) || (manager && s.managedFull) || s.freeSlot.isNone

/-- GROUP_FORM (R36, R164, R219, R270, R294): RARG0 is the slot. -/
def doGroupForm (tag : Byte) (img : Option GroupImage) (flags : W32) (s : Part) : Part :=
  (s.mbTake 0x10 tag (s.mb.st = 3#4) [0] fun s =>
    match img with
    | none => s.mbEnd tag 4 []
    | some g =>
      let manager := bitOf flags 0
      let only := bitOf flags 1
      if g.members.isEmpty || s.holdsLive g.group.toNat then s.mbEnd tag 2 []
      else if s.overLimit g manager only then s.mbEnd tag 0x0D []
      else
        let k := s.freeSlot.getD 0
        (s.takeGroup g k manager only (if manager then s.ownId else (g.member 0).ident)).mbEnd tag 0 [w32 k]).settle
def execGroupForm (tag : Byte) (img : Option GroupImage) (flags : W32) (s : State) : Result := s.run (doGroupForm tag img flags)

/-- GROUP_DISSOLVE (R294): the slot is free again. -/
def doGroupDissolve (tag : Byte) (group : W32) (s : Part) : Part :=
  (s.mbTake 0x11 tag (s.mb.st = 3#4) [0] fun s =>
    if (s.group group.toNat).isNone then s.mbEnd tag 2 []
    else
      let n : W16 := BitVec.ofNat 16 group.toNat
      let s : Part := { s with groups := tabErase s.groups group.toNat }
      ((s.crUnbind n).mirror (.membershipGone n)).mbEnd tag 0 []).settle
def execGroupDissolve (tag : Byte) (group : W32) (s : State) : Result := s.run (doGroupDissolve tag group)

/-- SPARE_LIST (R34, R274, R294). -/
def doSpareList (tag : Byte) (group : W32) (list : Option (List FabId)) (s : Part) : Part :=
  (s.mbTake 0x12 tag (s.mb.st = 3#4) [0] fun s =>
    match list, s.group group.toNat with
    | none, _ => s.mbEnd tag 4 []
    | some _, none => s.mbEnd tag 2 []
    | some l, some g =>
      if !g.manager || 256 < l.length then s.mbEnd tag 2 []
      else
        let img := { g.img with spares := l }
        ((s.onGroup group.toNat fun g => { g with img := img }).mirrorManaged group.toNat).mbEnd tag 0 []).settle
def execSpareList (tag : Byte) (group : W32) (list : Option (List FabId)) (s : State) : Result := s.run (doSpareList tag group list)

/-- CAL_LOAD (R133, R294): into the pending copy. -/
def doCalLoad (tag : Byte) (first : W32) (entries : Option (List W64)) (s : Part) : Part :=
  (s.mbTake 0x20 tag (s.mb.st = 3#4) [2] fun s =>
    match entries with
    | none => s.mbEnd tag 4 []
    | some es =>
      if 65536 < first.toNat + es.length then s.mbEnd tag 2 []
      else (s.each es.zipIdx fun s e => s.calPlace (first.toNat + e.2) e.1).mbRun 0x20 tag []).settle
def execCalLoad (tag : Byte) (first : W32) (entries : Option (List W64)) (s : State) : Result := s.run (doCalLoad tag first entries)

/-- TRACE_MASK (R294, R310). -/
def doTraceMask (tag : Byte) (mask : W32) (s : Part) : Part :=
  (s.mbTake 0x30 tag (s.mb.st ≠ 0#4) [3] fun s => (s.onGb fun g => { g with mask := mask &&& 0x1FE#32 }).mbEnd tag 0 []).settle
def execTraceMask (tag : Byte) (mask : W32) (s : State) : Result := s.run (doTraceMask tag mask)

/-- ADOPT (R306, R309). -/
def doAdopt (tag : Byte) (digest : BitVec 384) (s : Part) : Part :=
  ((s.drainOver s.now).mbTake 0x31 tag (s.mb.st = 4#4 || s.mb.st = 5#4) [1, 3] fun s =>
    if digest ≠ s.mb.imgHash then s.mbEnd tag 0x0C []
    else
      let t := s.now
      ((s.onMb fun m => { m with st := 3, hbArmed := true, hbLast := t }).guest 1 1 0x0208 [0, s.glob.step]).mbEnd tag 0 []).settle
def execAdopt (tag : Byte) (digest : BitVec 384) (s : State) : Result := s.run (doAdopt tag digest)

/-- UNPARK (R309): the step number, and nothing that a step mark does. -/
def doUnpark (tag : Byte) (step : W32) (s : Part) : Part :=
  (s.mbTake 0x32 tag (s.mb.st = 3#4 && s.mb.parked) [1] fun s =>
    let s := (s.onGlob fun g => { g with step := step }).onMb fun m => { m with parked := false, dropsLate := false }
    ((s.retestMarks).guest 1 1 0x0208 [1, step]).mbEnd tag 0 []).settle
def execUnpark (tag : Byte) (step : W32) (s : State) : Result := s.run (doUnpark tag step)

/-- Opcodes of R294. -/
def mbKnown (opc : Byte) : Bool := [0x01, 0x02, 0x03, 0x10, 0x11, 0x12, 0x20, 0x30, 0x31, 0x32].contains opc.toNat

/-- MAILBOX_UNKNOWN_COMMAND (R295): BAD_CMD. -/
def doMailboxUnknownCommand (opc tag : Byte) (s : Part) : Part :=
  if mbKnown opc then s.settle else (s.mbTake opc tag true [] fun s => s.mbEnd tag 1 []).settle
def execMailboxUnknownCommand (opc tag : Byte) (s : State) : Result := s.run (doMailboxUnknownCommand opc tag)

/-- MAILBOX_COMMAND_END (R293): a command that took time ends, a LOAD_IMAGE whose container has come with its check (R299, R300), the first not while K0
is halted (R327), another once the restarts it asked for are over. -/
def doMailboxCommandEnd (s : Part) : Part :=
  match s.mb.run with
  | some r =>
    match r.load with
    | some l =>
      match l.container with
      | none => s.settle
      | some c =>
        if s.mb.st ≠ 2#4 then (s.stageImage r.tag c).settle
        else if bitOf s.mb.halted 0 then s.settle
        else (s.checkImage r.tag l c).settle
    | none => if (s.mb.toSwitch.isEmpty || !s.mb.actAsked) && s.mb.restarting.all (fun x => !x.2.2) then (s.mbEnd r.tag r.status r.rargs).settle else s.settle
  | none => s.settle
def execMailboxCommandEnd (s : State) : Result := s.run doMailboxCommandEnd

/-- KEEPER_WATCHDOG (R303): 50 ms without a check-in. -/
def doKeeperWatchdog (k : Fin 4) (s : Part) : Part :=
  if bitOf s.mb.keeperUp k.val then (s.restartFor k.val 1).settle else s.settle
def execKeeperWatchdog (k : Fin 4) (s : State) : Result := s.run (doKeeperWatchdog k)

/-- PROTECTION_FAULT (R290, R303). -/
def doProtectionFault (k : Fin 4) (addr pc : W32) (s : Part) : Part :=
  if bitOf s.mb.keeperUp k.val then ((s.guest 0 3 0x0202 [w32 k.val, addr, pc]).restartFor k.val 2).settle else s.settle
def execProtectionFault (k : Fin 4) (addr pc : W32) (s : State) : Result := s.run (doProtectionFault k addr pc)

/-- KEEPER_RESTART_DONE (R301, R302); a restart that is deferred does not end (R305). -/
def doKeeperRestartDone (k : Fin 4) (crcOk : Bool) (s : Part) : Part :=
  match tabFind s.mb.restarting k.val with
  | some r => if s.mb.isDeferred k.val then s.settle else (s.restartDone k.val r.1 crcOk).settle
  | none => s.settle
def execKeeperRestartDone (k : Fin 4) (crcOk : Bool) (s : State) : Result := s.run (doKeeperRestartDone k crcOk)

/-- ACTIVATION_CANCEL (R305, R138): 30 s after the deferral. -/
def doActivationCancel (s : Part) : Part :=
  (s.each (s.mb.deferred.filter fun d => s.ended d.since 30000000000) fun s d =>
    let s := s.onMb fun m =>
      let rest := m.deferred.filter fun x => x ≠ d
      { m with
        deferred := rest
        actPending := !rest.isEmpty
        restarting := m.restarting.filter fun r => !(bitOf d.mask r.1 && decide (d.activate = decide (r.2.1 = 3)))
        toSwitch := if d.activate then [] else m.toSwitch }
    let s := (s.note 9 (BitVec.ofNat 16 d.mask.toNat) (w32 s.now)).guest 0 2 0x0205 [w32 d.mask.toNat]
    if d.kernel then (s.onMb fun m => { m with st := 1 }).onPwr fun p => { p with bootStep := 4 } else s).settle
def execActivationCancel (s : State) : Result := s.run doActivationCancel

end Sys2Proof.Machine
end

