-- ==== Sys2Proof/Machine/LinkCommands.lean ====
section
/-! DEFINITION. The commands of the flit interface and of the links (R53 to R56, R202 to R206, R265, R266, R286). -/

namespace Sys2Proof.Machine

/-- PCS_TX_CREDIT (R53): one credit of the transmit FIFO, never above 8. -/
def doPcsTxCredit (lg : Fin 8) (s : Part) : Part :=
  ((s.onLg lg.val fun l => { l with pcsCr := min 8 (l.pcsCr + 1) }).pumpAll lg.val).finish
def execPcsTxCredit (lg : Fin 8) (s : State) : Result := s.run (doPcsTxCredit lg)

/-- FLIT_RECEIVE (R54, R201, R202): FEC, LSEQ order, then the flit. -/
def doFlitReceive (lg : Fin 8) (hdr : BitVec 128) (payload : List Byte) (fecUe : Bool) (s : Part) : Part :=
  let g := lg.val
  let l := s.lg g
  if !l.active || s.glob.fencedSelf then s.finish
  else if fecUe then (s.sendLink g (.retry l.rxSeq)).finish
  else
    let s := (s.wake (.lane lg)).wake .gh
    if Fh.ftype hdr = 0 then (s.takeLink g hdr payload).settle
    else if Fh.lseq hdr ≠ l.rxSeq then (s.sendLink g (.retry l.rxSeq)).finish
    else ((s.onLg g fun l => { l with rxSeq := l.rxSeq + 1 }).takeFlit g hdr payload).settle
def execFlitReceive (lg : Fin 8) (hdr : BitVec 128) (payload : List Byte) (fecUe : Bool) (s : State) : Result :=
  s.run (doFlitReceive lg hdr payload fecUe)

/-- PCS_ACTIVE_RISE (R53, R203, R313): 8 credits, and INIT before anything else. -/
def doPcsActiveRise (lg : Fin 8) (s : Part) : Part :=
  let z := [0, 0, 0, 0, 0, 0]
  let old := (s.lg lg.val).credits
  let s := s.onLg lg.val fun l =>
    { l with
      active := true
      lowPower := false
      lpReq := false
      pcsCr := 8
      initRx := false
      credits := z
      owed := z
      withheld := z
      linkq := [.init]
      again := []
      claimAck := false }
  (((s.mirrorFabric lg.val old).wake (.lane lg)).pumpAll lg.val).finish
def execPcsActiveRise (lg : Fin 8) (s : State) : Result := s.run (doPcsActiveRise lg)

/-- PCS_ACTIVE_FALL (R55): the flits in the transmit FIFO are lost; the replay store keeps them. -/
def doPcsActiveFall (lg : Fin 8) (s : Part) : Part :=
  ((s.onLg lg.val fun l => { l with active := false, initRx := false, pcsCr := 0, linkq := [] }).claimDone).settle
def execPcsActiveFall (lg : Fin 8) (s : State) : Result := s.run (doPcsActiveFall lg)

/-- PCS_LANE_CHANGE (R26, R55, R56): an enabled Courier may move to another lane group, which must not sleep. -/
def doPcsLaneChange (lg : Fin 8) (up : BitVec 4) (s : Part) : Part := ((s.onLg lg.val fun l => { l with lanes := up }).courierWakes).finish
def execPcsLaneChange (lg : Fin 8) (up : BitVec 4) (s : State) : Result := s.run (doPcsLaneChange lg up)

/-- PCS_LP_ACK (R56, R313): the link is in its low-power state and no longer active, the lane group's clock stops. -/
def doPcsLpAck (lg : Fin 8) (s : Part) : Part :=
  if (s.lg lg.val).lpReq then
    ((s.onLg lg.val fun l => { l with lpReq := false, lowPower := true, active := false }).onPwr fun p =>
      { p with awake := p.awake.filter fun d => d ≠ .lane lg }).finish
  else s.finish
def execPcsLpAck (lg : Fin 8) (s : State) : Result := s.run (doPcsLpAck lg)

/-- A LINK flit, or a timer of the links, at an instance that R266 has not stopped. -/
def Part.onLink (s : Part) (f : Part → Part) : Part := if s.glob.fencedSelf then s.finish else f s

/-- LINK_RETRY (R202). -/
def doLinkRetry (lg : Fin 8) (rfrom : BitVec 12) (s : Part) : Part := s.onLink fun s => (s.resendFrom lg.val rfrom).settle
def execLinkRetry (lg : Fin 8) (rfrom : BitVec 12) (s : State) : Result := s.run (doLinkRetry lg rfrom)

/-- LINK_INIT (R203, R286, R325). -/
def doLinkInit (lg : Fin 8) (bufs : List W16) (s : Part) : Part :=
  s.onLink fun s => (s.takeInit lg.val (bufs.map fun (b : W16) => b.toNat)).settle
def execLinkInit (lg : Fin 8) (bufs : List W16) (s : State) : Result := s.run (doLinkInit lg bufs)

/-- LINK_CREDIT_RETURN (R203). -/
def doLinkCreditReturn (lg : Fin 8) (crets : List W16) (s : Part) : Part :=
  s.onLink fun s => (s.takeCredits lg.val (crets.map fun (b : W16) => b.toNat)).finish
def execLinkCreditReturn (lg : Fin 8) (crets : List W16) (s : State) : Result := s.run (doLinkCreditReturn lg crets)

/-- LINK_KEEPALIVE (R266): of an identity claimed on another link it is answered FENCED_ID. -/
def doLinkKeepalive (lg : Fin 8) (src : FabId) (s : Part) : Part :=
  s.onLink fun s => (if s.claimedElsewhere lg.val src then s.sendLink lg.val (.claim 4 src) else s.hear lg.val src).finish
def execLinkKeepalive (lg : Fin 8) (src : FabId) (s : State) : Result := s.run (doLinkKeepalive lg src)

/-- CLAIM (R265, R266). The claimant's own identity has been heard too; one that is claimed on another link is answered FENCED_ID. -/
def doClaim (lg : Fin 8) (src cid : FabId) (s : Part) : Part :=
  s.onLink fun s => (if s.claimedElsewhere lg.val src then s.sendLink lg.val (.claim 4 src) else (s.takeClaim lg.val cid).hear lg.val src).finish
def execClaim (lg : Fin 8) (src cid : FabId) (s : State) : Result := s.run (doClaim lg src cid)

/-- CLAIM_ACK (R265). -/
def doClaimAck (lg : Fin 8) (cid : FabId) (s : Part) : Part := s.onLink fun s => (s.takeClaimAck lg.val cid).settle
def execClaimAck (lg : Fin 8) (cid : FabId) (s : State) : Result := s.run (doClaimAck lg cid)

/-- CLAIM_REFUSED (R266). -/
def doClaimRefused (_lg : Fin 8) (cid : FabId) (s : Part) : Part := s.onLink fun s => (s.takeClaimRefused cid).settle
def execClaimRefused (lg : Fin 8) (cid : FabId) (s : State) : Result := s.run (doClaimRefused lg cid)

/-- FENCED_ID (R266). -/
def doFencedId (_lg : Fin 8) (cid : FabId) (s : Part) : Part := s.onLink fun s => (s.takeFencedId cid).finish
def execFencedId (lg : Fin 8) (cid : FabId) (s : State) : Result := s.run (doFencedId lg cid)

/-- LINK_RETRY_TIMER (R202): LACK has not advanced for 2 µs. -/
def doLinkRetryTimer (lg : Fin 8) (s : Part) : Part :=
  let g := lg.val
  match (s.lg g).replay with
  | [] => s.finish
  | r :: _ =>
    if s.ended (s.lg g).lackTime 2000 then
      let t := s.now
      ((s.onLg g fun l => { l with lackTime := t }).resendFrom g r.1).settle
    else s.finish
def execLinkRetryTimer (lg : Fin 8) (s : State) : Result := s.run (doLinkRetryTimer lg)

/-- LINK_IDLE_TIMER (R203, R266): a LINK flit with the credits owed, or a keep-alive. -/
def doLinkIdleTimer (lg : Fin 8) (s : Part) : Part :=
  let g := lg.val
  let l := s.lg g
  if l.active && l.initRx && s.ended l.lastSent 1000 then
    let t := s.now
    let s := s.onLg g fun l => { l with lastSent := t, owed := if sumN l.owed = 0 then l.owed else [0, 0, 0, 0, 0, 0] }
    (s.sendLink g (if sumN l.owed = 0 then .keepalive else .credits l.owed)).finish
  else s.finish
def execLinkIdleTimer (lg : Fin 8) (s : State) : Result := s.run (doLinkIdleTimer lg)

/-- LANE_RETRY_TIMER (R286): every 1 ms K0 asks to wake a lane group that is down. -/
def doLaneRetryTimer (lg : Fin 8) (s : Part) : Part :=
  let g := lg.val
  if (s.lg g).down && s.mb.runs 0 && s.ended (s.lg g).retryAt 1000000 then
    let t := s.now
    ((s.onLg g fun l => { l with retryAt := t }).emit (.wakeReq g)).finish
  else s.finish
def execLaneRetryTimer (lg : Fin 8) (s : State) : Result := s.run (doLaneRetryTimer lg)

/-- MESSAGE_TIMEOUT (R137, R206): a message still incomplete, or one that waits for its verdict or its re-send; one that waits for the other
tile of its pair lands alone (log entry 12). -/
def doMessageTimeout (src : FabId) (msgid : W16) (s : Part) : Part :=
  let tmo := s.gh.msgTmo.toNat
  let s := s.each (List.range 8) fun s g => s.expireAsm g src msgid
  let s := s.expireHeld src msgid
  let s := match s.findLanding src msgid with
    | some l => if s.ended l.since tmo then s.dropLanding l else s
    | none => s
  let s := match s.gh.landings.find? fun l => l.waitHalf && decide (l.src = src) && decide (l.msgid = msgid) with
    | some l => if s.ended l.since tmo then s.landNow { l with waitHalf := false } false none else s
    | none => s
  (s.creditsFree).settle
def execMessageTimeout (src : FabId) (msgid : W16) (s : State) : Result := s.run (doMessageTimeout src msgid)

/-- ACK_TIMEOUT (R212). -/
def doAckTimeout (msgid : W16) (s : Part) : Part :=
  match tabFind s.gh.outMsgs msgid.toNat with
  | some m => if m.expectsAck && s.ackLate m then (s.ackTimeout msgid).settle else s.finish
  | none => s.finish
def execAckTimeout (msgid : W16) (s : State) : Result := s.run (doAckTimeout msgid)

/-- EPOCH_HOLD_EXPIRY (R218): 1 ms after flit 0 was accepted. -/
def doEpochHoldExpiry (src : FabId) (msgid : W16) (s : Part) : Part :=
  match s.findHeld src msgid with
  | some h => if s.ended h.since 1000000 then (s.heldOut h 0x11).finish else s.finish
  | none => s.finish
def execEpochHoldExpiry (src : FabId) (msgid : W16) (s : State) : Result := s.run (doEpochHoldExpiry src msgid)

/-- LAST_FLIT_ACCEPTED (R22, R190, R212): the narrow or forwarding buffer goes back, the ACK window opens; a chunk is finished with. -/
def doLastFlitAccepted (msgid : W16) (s : Part) : Part :=
  match tabFind s.gh.outMsgs msgid.toNat with
  | none => s.finish
  | some m =>
    let t := s.now
    let s := (s.worked .gh).release m.buf
    let keep := m.ftype ≠ .tether || m.chunk.isSome
    (s.onGh fun y =>
      { y with
        outMsgs := if keep then tabInsert y.outMsgs msgid.toNat { m with buf := none, acceptedAt := some t }
          else tabErase y.outMsgs msgid.toNat }).finish
def execLastFlitAccepted (msgid : W16) (s : State) : Result := s.run (doLastFlitAccepted msgid)

end Sys2Proof.Machine
end

