-- ==== Sys2Proof/Machine/MessageCommands.lean ====
section
/-! DEFINITION. Messages that have arrived whole, their answers (R195, R201, R207 to R218), and chunks (R173, R188). -/

namespace Sys2Proof.Machine

/-- A message row for an identity that the instance answers for; any other is discarded. -/
def Part.arriveMsg (s : Part) (t : FType) (m : RxMsg) : Part :=
  if s.answers m.dst then (s.wake .gh).takeMsg t m else s.dropAsm m.lg.val m.src m.msgid

/-- SEND (R207, R209). -/
def doSend (m : RxMsg) (s : Part) : Part := (s.arriveMsg .send m).settle
def execSend (m : RxMsg) (s : State) : Result := s.run (doSend m)

/-- ARRIVE (R208). -/
def doArrive (m : RxMsg) (s : Part) : Part := (s.arriveMsg .arrive m).settle
def execArrive (m : RxMsg) (s : State) : Result := s.run (doArrive m)

/-- PUT (R207, R214). -/
def doPut (m : RxMsg) (s : Part) : Part := (s.arriveMsg .put m).settle
def execPut (m : RxMsg) (s : State) : Result := s.run (doPut m)

/-- GETREQ (R214). -/
def doGetreq (m : RxMsg) (s : Part) : Part := (s.arriveMsg .getreq m).settle
def execGetreq (m : RxMsg) (s : State) : Result := s.run (doGetreq m)

/-- GETRSP (R215). -/
def doGetrsp (m : RxMsg) (s : Part) : Part := (s.arriveMsg .getrsp m).settle
def execGetrsp (m : RxMsg) (s : State) : Result := s.run (doGetrsp m)

/-- VERDICT (R210, R218): kept with a message that is held, whose window of R206 it meets; a misfit opens the RESEND's. -/
def doVerdict (src : FabId) (msgid : W16) (misfit : Bool) (clipcnt : W32) (s : Part) : Part :=
  let s := s.expireHeld src msgid
  match s.findHeld src msgid with
  | some h =>
    (s.setHeld { h with verdict := some (misfit, clipcnt), last := if misfit && h.verdict.isNone then s.now else h.last }).finish
  | none => (s.takeVerdict src msgid misfit).settle
def execVerdict (src : FabId) (msgid : W16) (misfit : Bool) (clipcnt : W32) (s : State) : Result := s.run (doVerdict src msgid misfit clipcnt)

/-- RESEND (R210, R218). -/
def doResend (m : RxMsg) (s : Part) : Part :=
  let s := (s.dropAsm m.lg.val m.src m.msgid).expireHeld m.src m.msgid
  match s.findHeld m.src m.msgid with
  | some h => (s.setHeld { h with resend := some m }).finish
  | none => (s.takeResend m).settle
def execResend (m : RxMsg) (s : State) : Result := s.run (doResend m)

/-- ACK (R211, R212). -/
def doAck (src : FabId) (msgid : W16) (_xfer status : Byte) (s : Part) : Part := (s.takeAck src msgid status).settle
def execAck (src : FabId) (msgid : W16) (xfer status : Byte) (s : State) : Result := s.run (doAck src msgid xfer status)

/-- NACK (R218). -/
def doNack (src : FabId) (msgid : W16) (_xfer status : Byte) (epoch : W16) (s : Part) : Part :=
  (s.takeNack src msgid status epoch).settle
def execNack (src : FabId) (msgid : W16) (xfer status : Byte) (epoch : W16) (s : State) : Result := s.run (doNack src msgid xfer status epoch)

/-- TETHER_CHUNK_ARRIVE (R169, R173, R183 to R186): a chunk of the reduce phases. -/
def doTetherChunkArrive (m : ChunkMsg) (err : ChunkErr) (lerr : LarderErr) (s : Part) : Part := (s.takeChunk m err lerr).settle
def execTetherChunkArrive (m : ChunkMsg) (err : ChunkErr) (lerr : LarderErr) (s : State) : Result := s.run (doTetherChunkArrive m err lerr)

/-- TETHER_BROADCAST_ARRIVE (R171, R188): a chunk of the broadcast phases. -/
def doTetherBroadcastArrive (m : ChunkMsg) (err : ChunkErr) (lerr : LarderErr) (s : Part) : Part := (s.takeChunk m err lerr).settle
def execTetherBroadcastArrive (m : ChunkMsg) (err : ChunkErr) (lerr : LarderErr) (s : State) : Result := s.run (doTetherBroadcastArrive m err lerr)

/-! ### Windows of chunks (R183, R184, R186, R259) -/

/-- The rack row held at a chunk whose window has ended (R183). -/
def Part.rackOver (s : Part) (bank c chunk : Nat) : Option RowSet :=
  (s.ctxOf bank c).bind fun x => if (x.chunk chunk).hopDone then none else (x.chunk chunk).held.filter fun a => x.budgetOver a.arrived s.now
/-- The hall row held at a chunk whose window has ended (R186). -/
def Part.hallOver (s : Part) (bank c chunk : Nat) : Option RowSet :=
  (s.ctxOf bank c).bind fun x => if (x.chunk chunk).hallDone then none else (x.chunk chunk).heldHall.filter fun a => x.budgetOver a.arrived s.now
/-- They go on with ABSENT, the hall row before the rack row. -/
def Part.hopExpire (s : Part) (bank c chunk : Nat) : Part :=
  let s := match s.hallOver bank c chunk with | some a => s.hallAbsent bank c chunk a | none => s
  match s.rackOver bank c chunk with | some a => s.forwardAbsent bank c chunk a | none => s

/-- HOP_BUDGET_EXPIRY (R183, R186): the hall row of a rack group without its own, and the rack row, go on with ABSENT, in the context and in
the twin's of that number. -/
def doHopBudgetExpiry (ctx : Fin 64) (chunk : Nat) (s : Part) : Part :=
  let c := ctx.val
  if [0, 1].any fun b => (s.hallOver b c chunk).isSome || (s.rackOver b c chunk).isSome then
    ((s.hopExpire 0 c chunk).hopExpire 1 c chunk).settle
  else s.finish
def execHopBudgetExpiry (ctx : Fin 64) (chunk : Nat) (s : State) : Result := s.run (doHopBudgetExpiry ctx chunk)

/-- The stage whose start window has ended at a chunk, and that its successor has still to start (R184): 0 the rack's, 1 the hall's. -/
def Part.startOver (s : Part) (bank c chunk : Nat) : Option Nat :=
  (s.ctxOf bank c).bind fun x =>
    let ch := x.chunk chunk
    match ch.startAt, s.tableOf x with
    | some t, some g =>
      if !x.budgetOver t s.now then none
      else if !ch.hopDone && ch.held.isNone && x.isSuccessor g chunk then some 0
      else if ch.rackRow.isSome && !ch.hallDone && ch.heldHall.isNone && x.isHallSuccessor g chunk then some 1
      else none
    | _, _ => none

/-- The successor starts the chunk itself, unless the row's header came before the end (R139, R184). -/
def Part.startExpire (s : Part) (bank c chunk : Nat) : Part :=
  match s.startOver bank c chunk, s.ctxOf bank c with
  | some ph, some x =>
    let came := match s.rowComing bank c chunk ph, (x.chunk chunk).startAt with | some a, some t => !x.budgetOver t a | _, _ => false
    if came then s.onChunk bank c chunk fun k => { k with startAt := none }
    else if ph = 0 then s.successorStart bank c chunk else s.hallSuccessorStart bank c chunk
  | _, _ => s

/-- START_WINDOW_EXPIRY (R184), in the context and in the twin's of that number. -/
def doStartWindowExpiry (ctx : Fin 64) (chunk : Nat) (s : Part) : Part :=
  let c := ctx.val
  if [0, 1].any fun b => (s.startOver b c chunk).isSome then ((s.startExpire 0 c chunk).startExpire 1 c chunk).settle else s.finish
def execStartWindowExpiry (ctx : Fin 64) (chunk : Nat) (s : State) : Result := s.run (doStartWindowExpiry ctx chunk)

/-- STALL_WINDOW_EXPIRY (R259). -/
def doStallWindowExpiry (ctx : Fin 64) (chunk : Nat) (s : Part) : Part :=
  match s.ctxOf 0 ctx.val with
  | none => s.finish
  | some x =>
    match (x.chunk chunk).stallAt with
    | some t =>
      if s.ended t (s.ws (Tb.hopWs x.blk)).stallTmo.toNat then
        ((s.onChunk 0 ctx.val chunk fun k => { k with stallAt := none }).stallOf (0, ctx.val, chunk) 7).settle
      else s.finish
    | none => s.finish
def execStallWindowExpiry (ctx : Fin 64) (chunk : Nat) (s : State) : Result := s.run (doStallWindowExpiry ctx chunk)

/-- TETHER_DEPOSIT (R172): the oldest deposit, with what its Larder read met (R284). -/
def doTetherDeposit (ws : DepositIn) (s : Part) : Part :=
  (((s.larderErr ws.lerr).depositErr ws.ws.val ws.err).deposit ws.ws.val).settle
def execTetherDeposit (ws : DepositIn) (s : State) : Result := s.run (doTetherDeposit ws)

end Sys2Proof.Machine
end

