-- ==== Sys2Proof/Machine/NocCommands.lean ====
section
/-! DEFINITION. The commands of the NoC ports and of the Larder partitioner (R27 to R31, R50 to R52). -/

namespace Sys2Proof.Machine

/-! ### Data that has returned whole (R52, R153, R172, R214, R228, R235, R238) -/

/-- A row of operand values for a job of a drain port. -/
def DrainJob.takeOperand (j : DrainJob) (key : Nat) (data : List Byte) (bad : Bool) : DrainJob :=
  { j with
    opnd := tabInsert j.opnd key data
    opndDue := j.opndDue.filter fun k => k ≠ key
    opndBad := if bad then key :: j.opndBad else j.opndBad }

/-- Numbers 64 and above are lodges: their operands belong to the close, whose second pass follows the first (R124). -/
def Part.operandIn (s : Part) (dp job key : Nat) (data : List Byte) (bad : Bool) : Part :=
  if dp < 64 then s.onDp dp fun p => p.mapJobs fun j => if j.id = job then j.takeOperand key data bad else j
  else (s.onClosing job fun l => { l with job := l.job.map fun j => j.takeOperand key data bad }).closePass job

/-- FETCH MEM has its word (R235). -/
def Part.fetchIn (s : Part) (q skip : Nat) (data : List Byte) (bad : Bool) : Part :=
  match (s.seq q).wait with
  | .fetch ga =>
    if bad then s.seqFault q 7
    else s.onSeq q fun x => (x.setReg ga (BitVec.ofNat 64 (ofBytes (slice data skip 8)))).advance
  | _ => s

def wordsOf : Nat → List Byte → List W64
  | 0, _ => []
  | n + 1, bs => BitVec.ofNat 64 (ofBytes (bs.take 8)) :: wordsOf n (bs.drop 8)

/-- A Spool has been copied (R228). -/
def Part.spoolIn (s : Part) (q : Nat) (data : List Byte) (bad : Bool) : Part :=
  if bad then (s.onSeq q fun x => { x with loading := none }).seqFault q 7
  else s.onSeq q fun x =>
    match x.loading with
    | some l => { x with loading := none, loaded := true, spool := wordsOf l.len data }
    | none => x

/-- The payload of a COURIER instruction has come: into the data registers, then the issue (R238). An error refuses it (log entry 15). -/
def Part.courierIn (s : Part) (g skip op len8 cseq q ev : Nat) (en : Bool) (gb : Nat) (data : List Byte) (bad : Bool) : Part :=
  let prog := some (q, BitVec.ofNat 8 ev, en, gb)
  if bad then s.crRefuse g prog
  else
    let n := 2 * (len8 + 1)
    let ws := (List.range n).map fun i => BitVec.ofNat 32 (ofBytes (slice data (skip + 4 * i) 4))
    let s := s.onCrg g fun c => { c with data := ws ++ c.data.drop n }
    s.crIssue g (BitVec.ofNat 2 op) (BitVec.ofNat 3 len8) cseq prog

/-- A row of a source tile (R214). -/
def Part.sourceIn (s : Part) (job row : Nat) (data : List Byte) (bad : Bool) : Part :=
  match s.gh.srcJobs.find? fun j => decide (j.id = job) with
  | none => s
  | some j =>
    let j := { j with data := tabInsert j.data row data, due := j.due - 1, bad := if bad then row :: j.bad else j.bad }
    if j.due = 0 then s.sourceDone j
    else s.onGh fun g => { g with srcJobs := g.srcJobs.map fun x => if x.id = job then j else x }

/-- LOAD_IMAGE has its container's bytes (R299); an error of the read ends the command with NOC, in CHECKING back in WAIT_IMAGE (R295, R320). -/
def Part.imageIn (s : Part) (skip len : Nat) (data : List Byte) (bad : Bool) : Part :=
  match s.mb.run with
  | none => s
  | some r =>
    if !bad then
      s.onMb fun m => { m with run := some { r with load := r.load.map fun l => { l with container := some (slice data skip len) } } }
    else
      let first := decide (s.mb.st = 2#4)
      let s := s.mbEnd r.tag 4 []
      if first then (s.onMb fun m => { m with st := 1 }).onPwr fun p => { p with bootStep := 4 } else s

/-- The configuration blocks have come (R322). A list whose read met an error is taken as empty: every block is absent (DESIGN CHOICE, log
entry 41). -/
def Part.configIn (s : Part) (skip : Nat) (data : List Byte) (bad : Bool) : Part :=
  s.onMb fun m => { m with configBytes := some (if bad then [] else slice data skip 65536) }

/-! ### Write responses (R52, R160, R188, R211, R235, R238, R254) -/

/-- A descriptor's write is answered (R160). -/
def Part.drainAnswer (s : Part) (dp job : Nat) (bad : Bool) : Part :=
  let f (j : DrainJob) : DrainJob := if j.id = job then { j with nocDue := j.nocDue - 1, nocErr := j.nocErr || bad } else j
  let s := s.onDp dp fun p => { p.mapJobs f with tail := p.tail.map f }
  match (s.dp dp).tail.find? fun j => decide (j.id = job) && decide (j.nocDue = 0) with
  | none => s
  | some j =>
    (s.onDp dp fun p => { p with tail := p.tail.filter fun x => x.id ≠ job }).drainEnd dp j.desc j.src
      (if j.nocErr then 1 else if j.poisoned then 2 else 0)

/-- A PUT WORD is answered (R235, R254). -/
def Part.storeAnswer (s : Part) (q : Nat) (bad : Bool) : Part :=
  ((s.onSeq q fun x =>
    { x with
      stores := x.stores - 1
      wstoreErr := if bad then satAdd x.wstoreErr 1 else x.wstoreErr
      wstoreFlag := x.wstoreFlag || bad }).mirrorSeq q).retestFences

/-- A landing's write is answered (R211). -/
def Part.landAnswer (s : Part) (id : Nat) (bad : Bool) : Part :=
  match s.gh.landings.find? fun l => decide (l.id = id) with
  | none => s
  | some l =>
    let l := { l with nocDue := l.nocDue - 1, nocErr := l.nocErr || bad }
    if l.nocDue = 0 then s.landEnd l (if l.nocErr then 2 else 0)
    else s.onGh fun g => { g with landings := g.landings.map fun x => if x.id = id then l else x }

/-- A delivered unit's write is answered (R188, R189). -/
def Part.deliverAnswer (s : Part) (bank c n : Nat) : Part :=
  match s.ctxOf bank c with
  | none => s
  | some x =>
    let due := (x.chunk n).due
    let s := s.onChunk bank c n fun k => { k with due := k.due - 1 }
    if due = 1 then s.chunkDone bank c n else s

/-- A piece of a COURIER result is answered; the last one signals (R238). -/
def Part.courierAnswer (s : Part) (port g q ev : Nat) (en : Bool) (res : Nat) (use : NocUse) (bad : Bool) : Part :=
  let p := s.noc port
  if p.waiting.any (fun r => r.use.inner == use) || p.openReqs.any (fun o => o.2.1.use.inner == use) then
    let f (r : NocReq) : NocReq := if bad && r.use.inner == use then { r with bad := (if r.wr then 0 else r.len, 0) :: r.bad } else r
    s.onNoc port fun p => { p with waiting := p.waiting.map f, openReqs := p.openReqs.map fun o => (o.1, f o.2.1, o.2.2) }
  else s.signalIf en q ev (evCourier (b2n bad) g res)

/-- An answered write reaches what made it. -/
def Part.writeDone (s : Part) (port : Nat) (r : NocReq) (err : Bool) : Part :=
  let bad := err || !r.bad.isEmpty
  match r.use with
  | .drainOut dp job => s.drainAnswer dp job bad
  | .store q => s.storeAnswer q bad
  | .landing id => s.landAnswer id bad
  | .deliver bank ctx chunk => s.deliverAnswer bank ctx chunk
  | .courierOut g q ev en res _ => s.courierAnswer port g q ev en res r.use bad
  | _ => s

/-- The lines of a write have come (R50, log entry 10): its bytes are laid into them and they go out whole, ahead of all that waits; an error
of the read fails the write (R52). A range at the end of the lines is no error of the read: it marks the write, as its other pieces do. -/
def Part.mergeIn (s : Part) (port : Nat) (r : NocReq) (off : Nat) (data : List Byte) (use : NocUse) : Part :=
  let s := s.onNoc port fun p => { p with merging := false }
  if r.bad.any (fun b => decide (b.1 < r.len)) then (s.nocPump port (s.noc port).waiting.length).writeDone port ⟨true, off, data.length, data, use, []⟩ true
  else
    let d := off - r.off
    let w : NocReq := ⟨true, r.off, r.len, slice r.data 0 d ++ data ++ r.data.drop (d + data.length), use, r.bad⟩
    let s := s.onNoc port fun p => { p with waiting := w :: p.waiting }
    s.nocPump port (s.noc port).waiting.length

/-- A whole read reaches what asked for it. -/
def Part.readDone (s : Part) (port : Nat) (r : NocReq) : Part :=
  let bad := !r.bad.isEmpty
  match r.use with
  | .merge off data use => s.mergeIn port r off data use
  | .operand dp job key => s.operandIn dp job key r.data bad
  | .fetch q skip => (s.fetchIn q skip r.data bad).mirrorSeq q
  | .spool q => s.spoolIn q r.data bad
  | .courierIn g skip op len8 cseq q ev en gb => s.courierIn g skip op len8 cseq q ev en gb r.data bad
  | .source job row => s.sourceIn job row r.data bad
  | .part _ ctx chunk skip => s.partsIn ctx chunk skip r.data r.bad
  | .image skip len => s.imageIn skip len r.data bad
  | .config skip => s.configIn skip r.data bad
  | _ => s

/-- NOC_READ_DATA (R50 to R52): a beat joins its read; the last beat of a piece frees the tag, the last piece ends the read. -/
def doNocReadData (port : Fin 10) (tag : Byte) (data : List Byte) (err : BitVec 2) (s : Part) : Part :=
  let n := port.val
  match tabFind (s.noc n).openReqs tag.toNat with
  | none => s.finish
  | some o =>
    if o.1.wr then s.finish
    else
      let d := data.take (o.2 - o.1.data.length)
      let lo := o.1.data.length
      let r := { o.1 with data := o.1.data ++ d, bad := if err = 0#2 then o.1.bad else (lo, lo + d.length) :: o.1.bad }
      let s := s.onNoc n fun p => { p with errCnt := if err = 0#2 then p.errCnt else p.errCnt + 1 }
      if r.data.length < o.2 then (s.onNoc n fun p => { p with openReqs := tabInsert p.openReqs tag.toNat (r, o.2) }).finish
      else
        let s := s.onNoc n fun p => { p with openReqs := tabErase p.openReqs tag.toNat }
        let s := if n < 8 then s.wake (wsDom n) else s.wake .gh
        if r.data.length < r.len then
          let s := s.onNoc n fun p => { p with waiting := r :: p.waiting }
          (s.nocPump n (s.noc n).waiting.length).finish
        else ((s.nocPump n (s.noc n).waiting.length).readDone n r).settle
def execNocReadData (port : Fin 10) (tag : Byte) (data : List Byte) (err : BitVec 2) (s : State) : Result :=
  s.run (doNocReadData port tag data err)

/-- NOC_WRITE_RESPONSE (R51, R52). -/
def doNocWriteResponse (port : Fin 10) (tag : Byte) (err : BitVec 2) (s : Part) : Part :=
  let n := port.val
  match tabFind (s.noc n).openReqs tag.toNat with
  | none => s.finish
  | some o =>
    if !o.1.wr then s.finish
    else
      let s := s.onNoc n fun p =>
        { p with openReqs := tabErase p.openReqs tag.toNat, errCnt := if err = 0#2 then p.errCnt else p.errCnt + 1 }
      let s := if n < 8 then s.wake (wsDom n) else s.wake .gh
      ((s.nocPump n (s.noc n).waiting.length).writeDone n o.1 (decide (err ≠ 0#2))).settle
def execNocWriteResponse (port : Fin 10) (tag : Byte) (err : BitVec 2) (s : State) : Result := s.run (doNocWriteResponse port tag err)

/-- NOC_CREDIT_RETURN (R50). -/
def doNocCreditReturn (port : Fin 10) (chan : NocChan) (s : Part) : Part :=
  let n := port.val
  let s := s.onNoc n fun p => match chan with
    | .request => { p with reqCr := p.reqCr + 1 }
    | .writeData => { p with wrCr := p.wrCr + 1 }
  (s.nocPump n (s.noc n).waiting.length).finish
def execNocCreditReturn (port : Fin 10) (chan : NocChan) (s : State) : Result := s.run (doNocCreditReturn port chan)

/-! ### The Larder partitioner (R27 to R31) -/

/-- LARDER_REQUEST (R27, R28): a buffer of 1 to 4,096 credits, charged to its consuming unit's partition. -/
def doLarderRequest (requester consumer : Fin 74) (credits : Nat) (s : Part) : Part :=
  if 1 ≤ credits ∧ credits ≤ 4096 then (s.larderReq requester.val consumer.val credits).2.finish else s.finish
def execLarderRequest (requester consumer : Fin 74) (credits : Nat) (s : State) : Result := s.run (doLarderRequest requester consumer credits)

/-- A Spool load whose buffer is granted copies its words (R228), in whole 64 B units (R50). -/
def Part.spoolStart (s : Part) : Part :=
  s.each (List.range 9) fun s q =>
    match (s.seq q).loading with
    | some l =>
      if !l.asked && s.granted l.id then
        (s.onSeq q fun x => { x with loading := some { l with asked := true } }).nocRead (portOf q) l.src ((l.len * 8 + 63) / 64 * 64) (.spool q)
      else s
    | none => s

/-- What waits for buffers that have been granted goes on (R31, R122, R190, R203, R208, R228). -/
def Part.afterGrant (s : Part) : Part :=
  let s := s.openLodges
  let s := s.each (s.gh.landings.filter fun l => l.waitBuf && s.grantedOpt l.buf) fun s l => s.placeTile l
  ((s.spoolStart).runCtxs).creditsFree

/-- LARDER_GRANT (R29, R30): every grant that the rules allow, in their order. -/
def doLarderGrant (s : Part) : Part := (((s.onLarder fun l => l.grantAll l.queue.length).mirrorCredits).afterGrant).settle
def execLarderGrant (s : State) : Result := s.run doLarderGrant

/-- LARDER_STARVATION (R30): the oldest request of a partition has waited 256 cycles for pool credits, not held back by its ceiling. -/
def doLarderStarvation (part : Fin 16) (s : Part) : Part :=
  match s.larder.head part.val with
  | some r =>
    if !r.starved && !s.larder.byFloor r && s.larder.underCeil r then
      (s.onLarder fun l =>
        { l with
          queue := l.queue.map fun x => if x.id = r.id then { x with starved := true } else x
          starveCnt := satAdd l.starveCnt 1 }).finish
    else s.finish
  | none => s.finish
def execLarderStarvation (part : Fin 16) (s : State) : Result := s.run (doLarderStarvation part)

end Sys2Proof.Machine
end

