-- ==== Sys2Proof/Machine/PowerCommands.lean ====
section
/-! DEFINITION. The commands of power, clocks, the time base, resets and start-up (R62 to R66, R313 to R326). -/

namespace Sys2Proof.Machine

/-! ### The effective limit step (R316 to R318) -/

def PwrIn.emergency (i : PwrIn) : Bool := i.trip || i.emerg

/-- R316. -/
def PwrIn.step (i : PwrIn) : Nat := max i.limit.toNat (max (if i.warn then 3 else 0) (if i.emergency then 7 else 0))

/-- A port with a descriptor, an operand tile in delivery, or a lodge close (R313, R317). -/
def Part.dpBusy (s : Part) (n : Nat) : Bool :=
  let p := s.dp n
  p.exec.isSome || p.pend.isSome || !p.tail.isEmpty || !p.ops.isEmpty
    || s.ssu.closing.any fun l => decide (l.2.owner = n)
def Part.quadBusy (s : Part) (q : Nat) : Bool := (List.range 4).any fun i => s.dpBusy (4 * q + i)

/-- Waiting quads are admitted in their order while the cap allows (R317). -/
def Pwr.letOn : Nat → Pwr → Pwr
  | 0, p => p
  | n + 1, p =>
    match p.waitQuads with
    | q :: rest =>
      if p.quadsOn < quadCap p.stepEff then Pwr.letOn n { p with waitQuads := rest, waking := p.waking ++ [.quad (Fin.ofNat 16 q)] } else p
    | [] => p

/-- A quad is on. -/
def Pwr.quadOn (p : Pwr) (q : Nat) : Bool := p.awake.contains (.quad (Fin.ofNat 16 q)) || p.waking.contains (.quad (Fin.ofNat 16 q))

/-- A step applies: quads beyond the cap are gated, the highest first, and those with work wait for admission in the order of their first
triggers; else waiting quads are admitted. -/
def Part.applyStep (s : Part) (n : Nat) : Part :=
  let s := s.onPwr fun p => { p with stepEff := n, throttled := decide (0 < n) }
  let on := (List.range 16).filter s.pwr.quadOn
  let off := on.drop (quadCap n)
  let isOff (d : Dom) : Bool := match d with | .quad q => off.contains q.val | _ => false
  let again := off.filter fun q => s.quadBusy q || s.pwr.waking.contains (.quad (Fin.ofNat 16 q))
  s.onPwr fun p =>
    Pwr.letOn 16
      { p with
        awake := p.awake.filter fun d => !isOff d
        waking := p.waking.filter fun d => !isOff d
        waitQuads := again.foldl p.queueQuad p.waitQuads }

/-- The release window has ended (R318). -/
def Part.releaseEnd (s : Part) : Part :=
  match s.pwr.release with
  | some t =>
    if s.ended t s.pwr.releaseTmo.toNat then
      let s := s.onPwr fun p => { p with release := none }
      (s.applyStep s.pwr.inputs.step).trace 2 0x0801 [w32 s.pwr.inputs.word]
    else s
  | none => s

/-- One recognised change (R62, R304, R305, R316 to R318, R338). -/
def Part.inputChange (s : Part) (i : PwrIn) : Part :=
  let old := s.pwr.inputs
  let t := s.now
  let s := (s.onPwr fun p => { p with inputs := i, ack := false }).onIrq fun q => { q with pwr := true }
  let s := s.trace 2 0x0801 [w32 i.word]
  let s := if old.step < i.step then (s.onPwr fun p => { p with release := none }).applyStep i.step
    else if i.step < old.step && s.pwr.release.isNone then s.onPwr fun p => { p with release := some t }
    else s
  if i.emergency && !old.emergency then ((s.onMb fun m => { m with emerg := true }).wake .fwc).emergency
  else if !i.emergency && old.emergency then (s.onMb fun m => { m with emerg := false }).undefer
  else s

/-- The changes of one AON cycle in their order (R62), each with its sequence number. -/
def PwrIn.changes (o n : PwrIn) : List PwrIn :=
  let a : PwrIn := { o with trip := n.trip }
  let b : PwrIn := { a with emerg := n.emerg }
  let c : PwrIn := { b with warn := n.warn }
  (if o.trip != n.trip then [a] else []) ++ (if o.emerg != n.emerg then [b] else []) ++ (if o.warn != n.warn then [c] else [])
    ++ (if o.limit != n.limit then [n] else [])

/-- POWER_LINE_CHANGE (R62). -/
def doPowerLineChange (levels : PwrIn) (s : Part) : Part :=
  let s := s.releaseEnd
  (s.each (s.pwr.inputs.changes levels).zipIdx fun s c => (if c.2 = 0 then s else s.touch).inputChange c.1).settle
def execPowerLineChange (levels : PwrIn) (s : State) : Result := s.run (doPowerLineChange levels)

/-- POWER_RESPONSE_APPLIED (R63, R317). -/
def doPowerResponseApplied (s : Part) : Part := (s.onPwr fun p => { p with ack := true }).finish
def execPowerResponseApplied (s : State) : Result := s.run doPowerResponseApplied

/-- POWER_RELEASE_EXPIRY (R318). -/
def doPowerReleaseExpiry (s : Part) : Part := s.releaseEnd.settle
def execPowerReleaseExpiry (s : State) : Result := s.run doPowerReleaseExpiry

/-! ### The AON cycle (R61, R65, R66, R320, R336) -/

/-- Local time after a sample, whether it slipped, and whether it is held (R65). -/
def tbSteer (time : Nat) (held : Bool) (tb : Nat) : Nat × Bool × Bool :=
  if held && decide (tb < time) then (time, false, true)
  else if time + 5 + 1000 < tb then (tb, true, false)
  else if tb + 1000 < time + 5 then (time, true, true)
  else if time + 5 < tb then (time + 6, false, false)
  else if tb < time + 5 then (time + 4, false, false)
  else (time + 5, false, false)

/-- A container has come whole. -/
def Mb.copied (m : Mb) : Bool := match m.run.bind (·.load) with | some l => l.container.isSome | none => false

/-- Steps 1, 2, 5 and 8 of the start-up (R320, R329). Step 2 tests the FWC SRAM, and a failure leaves the instance FAILED; in step 5 the container
has come; in step 8 so have the blocks. The boot ROM runs on K0, and the blocks are applied by all Keepers: one that is halted stops the step
(R327). -/
def Part.bootTick (s : Part) : Part :=
  match s.pwr.bootStep with
  | 1 => (s.onPwr fun p => { p with bootStep := 2 }).onMb fun m => { m with debugUnlocked := bitOf s.sensed 1668 }
  | 2 =>
    if s.mb.st ≠ 0#4 || bitOf s.mb.halted 0 then s
    else
      let good := Config.fwcSramGood s.freeCtr
      let s : Part := { s with freeCtr := s.freeCtr + 1 }
      if good then s.onPwr fun p => { p with bootStep := 3 }
      else (s.onMb fun m => { m with st := 6 }).onIrq fun i => { i with fatal := true }
  | 5 => if s.mb.copied && !bitOf s.mb.halted 0 then s.onPwr fun p => { p with bootStep := 6 } else s
  | 8 =>
    match s.mb.configBytes with
    | some bytes => if s.mb.halted = 0#4 then s.configure bytes else s
    | none => s
  | _ => s

/-- What else an AON cycle does, local time going to `t`. -/
def Part.aonCycle (s : Part) (t : Nat) : Part :=
  let d := t - s.glob.time
  let s := s.onGlob fun g => { g with time := t, stepSrcEff := g.stepSrc }
  let s := s.onPwr fun p => { p with throttleNs := if 0 < p.stepEff then p.throttleNs + d else p.throttleNs }
  let s := s.onIrq fun i => { i with pin := decide (s.irqPending ≠ 0#32) }
  s.bootTick

/-- TIME_BASE_SAMPLE (R65). -/
def doTimeBaseSample (tb : W64) (s : Part) : Part :=
  let r := tbSteer s.glob.time s.glob.tbHold tb.toNat
  ((s.onGlob fun g => { g with tbValid := true, tbSlip := g.tbSlip || r.2.1, tbHold := r.2.2 }).aonCycle r.1).finish
def execTimeBaseSample (tb : W64) (s : State) : Result := s.runReset (doTimeBaseSample tb)

/-- TB_VALID_LOSS (R66). -/
def doTbValidLoss (s : Part) : Part :=
  ((s.onGlob fun g => { g with tbValid := false, tbLost := true, tbHold := false }).aonCycle (s.glob.time + 5)).finish
def execTbValidLoss (s : State) : Result := s.runReset doTbValidLoss

/-! ### Gating and waking (R26, R56, R313, R314) -/

/-- Waystation w has nothing in hand. -/
def Part.wsIdle (s : Part) (w : Nat) : Bool :=
  let free (x : Ctx) : Bool := decide (Tb.hopWs x.blk ≠ w) || (x.ins.isEmpty && x.outs.isEmpty)
  decide ((s.seq w).st ≠ 1#3) && (s.ws w).deposits.isEmpty && (s.noc w).waiting.isEmpty && (s.noc w).openReqs.isEmpty
    && (s.ctxs.all fun x => free x.2) && s.twinCtxs.all fun x => free x.2

/-- The Gatehouse core has no transfer open and no message in flight. -/
def Gh.idle (g : Gh) : Bool :=
  g.xfers.isEmpty && g.outbox.isEmpty && g.srcJobs.isEmpty && g.landings.isEmpty && g.helds.isEmpty && g.lgs.all (fun l => l.2.asms.isEmpty && l.2.queues.all List.isEmpty)
    && g.outMsgs.all fun m => m.2.acceptedAt.isSome

/-- Lane group g may ask for its low-power state (R26, R56). -/
def Part.mayLp (s : Part) (g : Nat) : Bool :=
  let l := s.lg g
  l.active && decide (l.pcsCr = 8) && l.again.isEmpty && !l.lpReq
    && !(s.courier.en && s.courierLanes g)

/-- A domain has no work (R313). -/
def Part.domIdle (s : Part) (d : Dom) : Bool :=
  match d with
  | .fwc => !s.mb.busy && s.mb.restarting.isEmpty && (!([2, 3, 8].contains s.pwr.bootStep) || decide (s.mb.st = 6#4))
  | .quad q => !s.quadBusy q.val
  | .ws w => s.wsIdle w.val
  | .gh => s.gh.idle
  | .lane g => s.mayLp g.val
  | .larder _ => s.larder.queue.isEmpty
  | .ssu => true
  | .courier => !s.courier.en

/-- A trigger, or the end of work, came within the domain's hold time (R313, R314); for a lane group also a flit that it has sent. -/
def Part.triggered (s : Part) (d : Dom) : Bool :=
  let sent (h : W32) : Bool := match d with | .lane g => decide (0 < (s.lg g.val).lastSent) && !s.ended (s.lg g.val).lastSent h.toNat | _ => false
  match d.hold s.pwr with
  | some h => sent h || (match tabFind s.pwr.trigAt d.num with | some t => !s.ended t h.toNat | none => false)
  | none => false

/-- DOMAIN_IDLE_GATE (R313, R314): a domain without work and without a trigger in its hold time: a lane group asks for low power, any other
domain's clock stops. -/
def doDomainIdleGate (d : Dom) (s : Part) : Part :=
  if !s.domIdle d || s.triggered d then s.finish
  else match d with
    | .lane g => ((s.onLg g.val fun l => { l with lpReq := true }).emit (.lpReq g.val)).finish
    | _ => (s.onPwr fun p => Pwr.letOn 16 { p with awake := p.awake.filter fun x => x ≠ d }).finish
def execDomainIdleGate (d : Dom) (s : State) : Result := s.run (doDomainIdleGate d)

/-- DOMAIN_WAKE_DONE (R314, R330): its queued work goes on. -/
def doDomainWakeDone (d : Dom) (s : Part) : Part :=
  if s.pwr.waking.contains d then
    (s.onPwr fun p => { p with waking := p.waking.filter (fun x => x ≠ d), awake := p.awake ++ [d], wakeCnt := satAdd p.wakeCnt 1 }).settle
  else s.settle
def execDomainWakeDone (d : Dom) (s : State) : Result := s.run (doDomainWakeDone d)

/-! ### Resets (R319) -/

/-- A cold reset re-senses the fuses and loses the Larder's content. -/
def State.cold (s : State) (cause : BitVec 4) : Result := .next { s with part := s.part.coldReset s.fuses cause, larderRam := [] }

/-- POWER_ON_RESET (R319). -/
def execPowerOnReset (s : State) : Result := s.cold 1

/-- PACKAGE_RESET (R319). -/
def execPackageReset (s : State) : Result := s.cold 2

/-- SOFTWARE_WARM_RESET (R319): a write of WL_PWR_RESET with its effect on the Larder. -/
def doSoftwareWarmReset (value : W32) (s : Part) : Part := (s.whenOpen fun s => s.resetWord value).finish
def execSoftwareWarmReset (value : W32) (s : State) : Result := s.runReset (doSoftwareWarmReset value)

/-! ### Start-up (R320, R321, R325, R326) -/

/-- LARDER_BIST_DONE (R320, R321): the test leaves every line zero. -/
def bistDone (pass : Bool) (s : Part) : Part :=
  if pass then ((s.onPwr fun p => { p with bootStep := 4 }).onMb fun m => { m with st := 1 }).finish
  else
    let r := ((s.onMb fun m => { m with st := 6 }).onIrq fun i => { i with fatal := true }).record 4 Config.bistFailLevel.toNat Config.bistFailTp []
    (r.2.guestWrite r.1).finish
def execLarderBistDone (pass : Bool) (s : State) : Result :=
  if s.part.pwr.bootStep = 3 && s.part.mb.st = 0#4 then .next { s with part := bistDone pass s.part, larderRam := [] }
  else s.run Part.finish

/-- LANE_BRINGUP_TIMEOUT (R325). -/
def doLaneBringupTimeout (s : Part) : Part :=
  s.lanesDue.settle
def execLaneBringupTimeout (s : State) : Result := s.run doLaneBringupTimeout

/-- JOIN_TIMEOUT (R326): the slot is free again. -/
def doJoinTimeout (group : W16) (s : Part) : Part :=
  match s.pwr.joins.find? fun j => decide (j.1 = group) with
  | some j =>
    if s.pwr.bootStep = 10 && s.ended j.2.2.2 100000000 then
      ((s.onPwr fun p => { p with joinFail := true, joins := p.joins.filter fun x => x ≠ j }).joinsDone).settle
    else s.settle
  | none => s.settle
def execJoinTimeout (group : W16) (s : State) : Result := s.run (doJoinTimeout group)

end Sys2Proof.Machine
end

