-- ==== Sys2Proof/Machine/RegisterCommands.lean ====
section
/-! DEFINITION. The commands of the register window (R8 to R12, R133, R225, R310, R338, R346, R348). -/

namespace Sys2Proof.Machine

/-- An access that R8 refuses: a read answers 0, both set ACCESS_ERR; nothing while the window is shut (R333). -/
def Part.misaligned (s : Part) (off : Nat) (wr : Bool) : Part :=
  let s := if wr then s else s.onGlob fun g => { g with rdata := 0 }
  s.whenOpen fun s => s.accessErr 0 off wr

/-- A read on the bus. -/
def Part.busRead (s : Part) (off : Nat) : Part :=
  if off % 4 ≠ 0 then s.misaligned off false
  else
    let r := s.windowRead off
    r.2.onGlob fun g => { g with rdata := r.1 }

/-- REGISTER_WRITE (R10): every register, with the behaviour its table gives it. -/
def doRegisterWrite (offset : BitVec 20) (value : W32) (s : Part) : Part := (s.windowWrite offset.toNat value).settle
def execRegisterWrite (offset : BitVec 20) (value : W32) (s : State) : Result := s.runReset (doRegisterWrite offset value)

/-- MISALIGNED_ACCESS (R8): of another width, or not aligned. -/
def doMisalignedAccess (offset : BitVec 20) (wr : Bool) (s : Part) : Part := (s.misaligned offset.toNat wr).finish
def execMisalignedAccess (offset : BitVec 20) (wr : Bool) (s : State) : Result := s.run (doMisalignedAccess offset wr)

/-- UNMAPPED_ACCESS (R9): a read returns 0; a write is ignored and sets ACCESS_ERR. -/
def doUnmappedAccess (offset : BitVec 20) (wr : Bool) (s : Part) : Part :=
  if (s.regRead offset.toNat).isSome then s.finish
  else if wr then (s.whenOpen fun s => s.accessErr 1 offset.toNat true).finish
  else (s.onGlob fun g => { g with rdata := 0 }).finish
def execUnmappedAccess (offset : BitVec 20) (wr : Bool) (s : State) : Result := s.run (doUnmappedAccess offset wr)

/-- RC_READ (R11, R332). -/
def doRcRead (offset : BitVec 20) (s : Part) : Part := (s.busRead offset.toNat).finish
def execRcRead (offset : BitVec 20) (s : State) : Result := s.run (doRcRead offset)

/-- LOW_HALF_READ (R12). -/
def doLowHalfRead (offset : BitVec 20) (s : Part) : Part := (s.busRead offset.toNat).finish
def execLowHalfRead (offset : BitVec 20) (s : State) : Result := s.run (doLowHalfRead offset)

/-- IRQ_SET (R338). -/
def doIrqSet (value : W32) (s : Part) : Part := (s.whenOpen fun s => s.irqSet value).finish
def execIrqSet (value : W32) (s : State) : Result := s.run (doIrqSet value)

/-- ROUTE_DATA_WRITE (R194, R225). -/
def doRouteDataWrite (value : W32) (s : Part) : Part := (s.whenOpen fun s => s.routeData value).finish
def execRouteDataWrite (value : W32) (s : State) : Result := s.run (doRouteDataWrite value)

/-- ROLE_DATA_WRITE (R216, R225). -/
def doRoleDataWrite (value : W32) (s : Part) : Part := (s.whenOpen fun s => s.roleData value).finish
def execRoleDataWrite (value : W32) (s : State) : Result := s.run (doRoleDataWrite value)

/-- STREAM_INDEX_WRITE (R346). -/
def doStreamIndexWrite (value : W32) (s : Part) : Part :=
  (s.whenOpen fun s => s.onSsu fun u => u.loadStream (BitVec.ofNat 12 (fld value 0 12))).finish
def execStreamIndexWrite (value : W32) (s : State) : Result := s.run (doStreamIndexWrite value)

/-- STREAM_COMMIT (R346): any value commits. -/
def doStreamCommit (_value : W32) (s : Part) : Part := (s.whenOpen Part.streamCommit).finish
def execStreamCommit (value : W32) (s : State) : Result := s.run (doStreamCommit value)

/-- SIGN_INDEX_WRITE (R348). -/
def doSignIndexWrite (value : W32) (s : Part) : Part :=
  (s.whenOpen fun s => s.onSsu fun u => u.loadSign (BitVec.ofNat 14 (fld value 0 14))).finish
def execSignIndexWrite (value : W32) (s : State) : Result := s.run (doSignIndexWrite value)

/-- SIGN_DATA3_WRITE (R348). -/
def doSignData3Write (value : W32) (s : Part) : Part := (s.whenOpen fun s => s.signData3 value).finish
def execSignData3Write (value : W32) (s : State) : Result := s.run (doSignData3Write value)

/-- CAL_INDEX_WRITE (R348). -/
def doCalIndexWrite (value : W32) (s : Part) : Part :=
  (s.whenOpen fun s => s.onSsu fun u => u.loadCal (BitVec.ofNat 16 (fld value 0 16))).finish
def execCalIndexWrite (value : W32) (s : State) : Result := s.run (doCalIndexWrite value)

/-- CAL_HI_WRITE (R133). -/
def doCalHiWrite (value : W32) (s : Part) : Part := (s.whenOpen fun s => s.calHi value).finish
def execCalHiWrite (value : W32) (s : State) : Result := s.run (doCalHiWrite value)

/-- CAL_LO_READ (R348): CAL_HI is latched. -/
def doCalLoRead (s : Part) : Part := (s.busRead 0xC074).finish
def execCalLoRead (s : State) : Result := s.run doCalLoRead

/-- GUESTBOOK_CONFIGURE (R310): BASE and SIZE written, staged entries flushed. -/
def doGuestbookConfigure (base : W64) (size : W32) (s : Part) : Part :=
  (s.whenOpen fun s => (s.onGb fun g => { g with base := off47 base, size := size &&& 0x1F#32 }).gbFlush).finish
def execGuestbookConfigure (base : W64) (size : W32) (s : State) : Result := s.run (doGuestbookConfigure base size)

/-- HEARTBEAT (R306). -/
def doHeartbeat (count : W32) (s : Part) : Part := (s.whenOpen fun s => s.heartbeat count).finish
def execHeartbeat (count : W32) (s : State) : Result := s.run (doHeartbeat count)

end Sys2Proof.Machine
end

