-- ==== Sys2Proof/Machine/LarderView.lean ====
section
/-! DEFINITION. What the lines of live Larder buffers hold where the spec lays their bytes out (R27, R82, R168, R228): Spools, and units behind
their records, those of a chunk behind its header. The test port reads and writes them there (R327). -/

namespace Sys2Proof.Machine

/-! ### Spools (R228) -/

/-- The place of a line in a buffer, in bytes (R27). -/
def LBuf.lineAt (b : LBuf) (line : Nat) : Option Nat :=
  ((List.range b.creditList.length).find? fun i => decide (b.creditList.getD i 0 = line / 16)).map fun i => 1024 * i + 64 * (line % 16)

/-- The Spool that a line holds, and its first word there (R27, R228): word n of a Spool stands at byte 8n of its buffer. -/
def Part.spoolAt (s : Part) (line : Nat) : Option (Nat × Nat) :=
  (List.range 9).findSome? fun q =>
    (((s.seq q).spoolBuf.bind (tabFind s.larder.bufs)).bind fun b => b.lineAt line).map fun n => (q, n / 8)

/-- The words of a Spool from word n on that a line's eight words replace. -/
def spoolPut (ws : List W64) (n : Nat) (line : BitVec 512) : List W64 :=
  ws.zipIdx.map fun (w, i) => if n ≤ i ∧ i < n + 8 then BitVec.ofNat 64 (fld line (64 * (i - n)) 64) else w

/-! ### Units (R82, R168) -/

/-- Bytes with a line laid over them from `off` on. -/
def layLine (bs : List Byte) (off : Nat) (line : List Byte) : List Byte := bs.take off ++ line.take (bs.length - off) ++ bs.drop (off + line.length)

/-- Units of the same sizes read from other bytes. -/
def rereadUnits : List LUnit → List Byte → List LUnit
  | [], _ => []
  | u :: us, bs =>
    { led := Rec.ofWord (BitVec.ofNat 64 (ofBytes (bs.take 8))), els := slice bs 8 u.els.length } :: rereadUnits us (bs.drop (8 + u.els.length))

/-- The header of a row set in the chunk's buffer (R168, R169). -/
def Ctx.rowHeader (x : Ctx) (n phase : Nat) (r : RowSet) : BitVec 128 :=
  Ch.mk (Tb.group x.blk) n phase r.boundExt r.startTaken (x.fmtCode phase r.fmt) r.hops (Tb.seq x.blk) r.units.length
/-- The bytes of its buffer: header, then units. -/
def Ctx.rowBytes (x : Ctx) (n phase : Nat) (r : RowSet) : List Byte := toBytes 16 (x.rowHeader n phase r).toNat ++ unitsBytes r.units
/-- A row set read back from other bytes: what it holds of the header, and its units. The header's other fields stand with the context (log
entry 4). -/
def RowSet.reread (r : RowSet) (bs : List Byte) : RowSet :=
  let h : BitVec 128 := BitVec.ofNat 128 (ofBytes (bs.take 16))
  { r with boundExt := Ch.boundExt h, startTaken := Ch.startTaken h, hops := Ch.hops h, units := rereadUnits r.units (bs.drop 16) }

/-- The row sets of a chunk, with their phases. -/
def Chunk.rows (k : Chunk) : List (Nat × RowSet) :=
  (k.held.map fun r => (0, r)).toList ++ (k.heldHall.map fun r => (1, r)).toList ++ (k.rackRow.map fun r => (0, r)).toList
    ++ (k.finished.map fun r => (2, r)).toList

/-- Live buffers whose bytes the spec lays out, by the number of their request: chunks; deposits, and messages that wait or are kept for a
re-send. -/
def Part.bufImages (s : Part) : List (Nat × List Byte) :=
  let held (b : Option Nat) (us : List LUnit) : List (Nat × List Byte) := (b.map fun n => (n, unitsBytes us)).toList
  ((s.ctxs ++ s.twinCtxs).map fun x => (x.2.chunks.map fun k =>
      k.2.rows.filterMap fun r => r.2.buf.map fun n => (n, x.2.rowBytes k.1 r.1 r.2)).flatten).flatten
    ++ (s.wss.map fun w => (w.2.deposits.map fun d => held d.buf d.units ++ held d.keepBuf d.keep).flatten).flatten
    ++ (s.gh.outbox.map fun o => held o.buf o.units ++ held o.keepBuf o.keep).flatten
    ++ (s.gh.outMsgs.map fun o => held o.2.keepBuf o.2.keep).flatten

/-- Change the bytes of the buffer with number `n`. -/
def Part.onBuf (s : Part) (n : Nat) (f : List Byte → List Byte) : Part :=
  let us (b : Option Nat) (l : List LUnit) : List LUnit := if b = some n then rereadUnits l (f (unitsBytes l)) else l
  let row (x : Ctx) (c phase : Nat) (r : RowSet) : RowSet := if r.buf = some n then r.reread (f (x.rowBytes c phase r)) else r
  let ctx (x : Ctx) : Ctx :=
    { x with chunks := x.chunks.map fun k => (k.1,
        { k.2 with
          held := k.2.held.map (row x k.1 0)
          heldHall := k.2.heldHall.map (row x k.1 1)
          rackRow := k.2.rackRow.map (row x k.1 0)
          finished := k.2.finished.map (row x k.1 2) }) }
  { s with
    ctxs := s.ctxs.map fun x => (x.1, ctx x.2)
    twinCtxs := s.twinCtxs.map fun x => (x.1, ctx x.2)
    wss := s.wss.map fun w => (w.1, { w.2 with deposits := w.2.deposits.map fun d => { d with units := us d.buf d.units, keep := us d.keepBuf d.keep } })
    gh := { s.gh with
      outbox := s.gh.outbox.map fun o => { o with units := us o.buf o.units, keep := us o.keepBuf o.keep }
      outMsgs := s.gh.outMsgs.map fun o => (o.1, { o.2 with keep := us o.2.keepBuf o.2.keep }) } }

/-- The live buffer that a line lies in, and the line's place there. -/
def Part.bufAt (s : Part) (line : Nat) : Option (Nat × Nat) :=
  s.larder.bufs.findSome? fun b => (b.2.lineAt line).map fun o => (b.1, o)

/-- The test of R321 leaves every line zero, those of live buffers among them. -/
def Part.zeroBufs (s : Part) : Part :=
  let s := s.each (List.range 9) fun s q => s.onSeq q fun x => { x with spool := x.spool.map fun _ => 0 }
  s.each s.larder.bufs fun s b => s.onBuf b.1 fun bs => bs.map fun _ => 0

/-- Lay a line over what its buffer holds. -/
def Part.pokeLine (s : Part) (line : Nat) (data : BitVec 512) : Part :=
  match s.spoolAt line with
  | some (q, n) => s.onSeq q fun x => { x with spool := spoolPut x.spool n data }
  | none =>
    match s.bufAt line with
    | some (b, o) => s.onBuf b fun bs => layLine bs o (toBytes 64 data.toNat)
    | none => s

/-- The bytes of a line as one number. -/
def lineOf (m : List Host.Cell) (line : Nat) : Nat := ofBytes ((List.range 64).map fun i => Memory.read m (line * 64 + i))

/-- What the line's buffer holds there, if its bytes are laid out: as many as the buffer's content reaches. -/
def Part.lineBytes (s : Part) (line : Nat) : Option (List Byte) :=
  match s.spoolAt line with
  | some (q, n) => some ((((s.seq q).spool.drop n).take 8).map fun (w : W64) => toBytes 8 w.toNat).flatten
  | none => (s.bufAt line).bind fun (b, o) => (s.bufImages.find? fun x => decide (x.1 = b)).map fun x => (x.2.drop o).take 64

/-- A line of the Larder as the test port reads it: what its buffer holds, over the RAM. -/
def State.lineRead (s : State) (line : Nat) : Nat :=
  let raw := toBytes 64 (lineOf s.larderRam line)
  ofBytes (layLine raw 0 ((s.part.lineBytes line).getD []))

end Sys2Proof.Machine
end

