-- ==== Sys2Proof/Machine/TestCommands.lean ====
section
/-! DEFINITION. The instructions of the test access port (R67, R68, R319, R327, R328). What is shifted out leaves as a list of bits,
bit 0 first. -/

namespace Sys2Proof.Machine

/-- The low `n` bits of a number, bit 0 first. -/
def bitsOf : Nat → Nat → List Bool
  | 0, _ => []
  | n + 1, v => decide (v % 2 = 1) :: bitsOf n (v / 2)

def Part.shiftOut (s : Part) (bits : List Bool) : Part := s.emit (.testOut bits)

/-- IDCODE (R67). -/
def doIdcode (s : Part) : Part := (s.shiftOut (bitsOf 32 0x0A570D3F)).finish
def execIdcode (s : State) : Result := s.run doIdcode

/-- Codes that R327 decodes to something else than BYPASS. -/
def testCode (c : Byte) : Bool := [0x01, 0x40, 0x41, 0x42, 0x43, 0x44, 0x45, 0x46].contains c.toNat

/-- BYPASS (R327): one bit through. -/
def doBypass (code : Byte) (tdi : Bool) (s : Part) : Part := if testCode code then s.finish else (s.shiftOut [tdi]).finish
def execBypass (code : Byte) (tdi : Bool) (s : State) : Result := s.run (doBypass code tdi)

/-- The register of an access without the rules of R8: the one its offset lies in. -/
def regOf (off : BitVec 20) : Nat := off.toNat / 4 * 4

/-- The domain of the unit that a register belongs to (R313, R331); none for the AON domain. -/
def domOfOff (off : Nat) : Option Dom :=
  if 0x1000 ≤ off ∧ off < 0x4000 then some (.larder 0)
  else if 0x4000 ≤ off ∧ off < 0x8000 then some (quadOf ((off - 0x4000) / 0x100))
  else if 0x8000 ≤ off ∧ off < 0xA000 then some (wsDom ((off - 0x8000) / 0x400))
  else if 0xA000 ≤ off ∧ off < 0xB000 then some .gh
  else if 0xB000 ≤ off ∧ off < 0xC000 then some .courier
  else if 0xC000 ≤ off ∧ off < 0xD000 then some .ssu
  else if 0xD000 ≤ off ∧ off < 0xD200 then some .fwc
  else none

/-- REG_ACCESS (R327): WR, OFFSET, DATA, STATUS; the unit's domain wakes. -/
def doRegAccess (wr : Bool) (offset : BitVec 20) (data : W32) (s : Part) : Part :=
  let o := regOf offset
  let s := match domOfOff o with | some d => s.wake d | none => s
  let out (d : W32) : List Bool := [wr] ++ bitsOf 20 offset.toNat ++ bitsOf 32 d.toNat ++ [true, false]
  if wr then ((s.windowWrite o data).shiftOut (out data)).settle
  else
    let r := s.windowRead o
    ((r.2.onGlob fun g => { g with rdata := r.1 }).shiftOut (out r.1)).settle
def execRegAccess (wr : Bool) (offset : BitVec 20) (data : W32) (s : State) : Result := s.runReset (doRegAccess wr offset data)

/-- LARDER_ACCESS (R19, R27, R82, R168, R228, R313, R327): the half that holds the line's bank wakes. A line beyond the last completes no access, and what was
shifted in comes out again (DEDUCED, log entry 4). -/
def execLarderAccess (wr : Bool) (line : BitVec 20) (data : BitVec 512) (s : State) : Result :=
  let bits (v : Nat) (ok : Bool) : List Bool := [wr] ++ bitsOf 20 line.toNat ++ bitsOf 512 v ++ [ok, false]
  if 786432 ≤ line.toNat then .next { s with part := (s.part.shiftOut (bits data.toNat false)).finish }
  else
    let p := s.part.wake (.larder (bankHalf (lineBank line.toNat)))
    let p := if wr then p.pokeLine line.toNat data else p
    let t : State := { s with part := p, larderRam := if wr then Memory.writeAll s.larderRam (line.toNat * 64) (toBytes 64 data.toNat) else s.larderRam }
    .next { t with part := (p.shiftOut (bits (t.lineRead line.toNat) true)).finish }

/-- FWC_CTRL (R327): a Keeper that resumes takes up what waited for it. -/
def doFwcCtrl (halt resume : BitVec 4) (s : Part) : Part :=
  let pc := Config.keeperPc s.freeCtr
  let back := (List.range 4).filter fun k => bitOf resume k && bitOf s.mb.halted k
  let s : Part := { s with freeCtr := s.freeCtr + 1 }
  let s := (s.onMb fun m => { m with halted := clearBits (m.halted ||| halt) resume }).wake .fwc
  ((s.each back Part.keeperBack).shiftOut (bitsOf 4 halt.toNat ++ bitsOf 4 resume.toNat ++ bitsOf 32 pc.toNat)).settle
def execFwcCtrl (halt resume : BitVec 4) (s : State) : Result := s.run (doFwcCtrl halt resume)

/-- FUSE_READ (R328). -/
def execFuseRead (s : State) : Result := .next { s with part := (s.part.shiftOut (bitsOf 2048 s.fuses.toNat)).finish }

/-- FUSE_PROG (R327, R328): it needs the package fuse supply; a blown fuse stays blown. A number beyond the map blows none. -/
def execFuseProg (bit : BitVec 12) (supply : Bool) (s : State) : Result :=
  .next { s with part := s.part.finish, fuses := if supply ∧ bit.toNat < 2048 then setBitAt s.fuses bit.toNat else s.fuses }

/-- BIST_RUN (R321, R327). -/
def execBistRun (go pass : Bool) (s : State) : Result :=
  let p := (s.part.wake (.larder 0)).wake (.larder 1)
  .next { s with part := ((if go then p.zeroBufs else p).shiftOut [go, pass]).finish, larderRam := if go then [] else s.larderRam }

/-- TEST_RESET (R319, R327). -/
def execTestReset (cold : Bool) (s : State) : Result :=
  if cold then s.cold 8 else .next { s with part := (s.part.warmReset 8).finish, larderRam := [] }

end Sys2Proof.Machine
end

