-- ==== Sys2Proof/Machine/TwinCommands.lean ====
section
/-! DEFINITION. The commands of the twin link and of the twin block (R57, R58, R264, R265, R269, R275). -/

namespace Sys2Proof.Machine

/-- TWIN_WORD_RECEIVE (R57, R269): a word in sequence with its CRC right is accepted, any other dropped and asked for again. A word
accepted in the split state begins the resynchronisation; one at the end of the 4 µs of R58 or later finds the twin lost (R138). An uncorrectable error that the mirror store meets at the entry (R285) comes with it. -/
def doTwinWordReceive (seq : W16) (payload : List Byte) (crc : W32) (item : MirrorIn) (s : Part) : Part :=
  if crc ≠ crc32c (toBytes 2 seq.toNat ++ payload) || seq ≠ s.twin.rxSeq then (s.emit (.twinRetry s.twin.rxSeq)).finish
  else
    let t := s.now
    let s := if s.twinSilent then s.twinLost else s
    let s := s.onTwin fun x => { x with rxSeq := x.rxSeq + 1, lastRx := t }
    let s := if s.twin.st = 4#3 then ((s.twinState 5).onTwin fun x => { x with mirror := .reset, lostTold := false }).mirrorAll else s
    ((s.takeWord item.item).mirrorUe item.ue).settle
def execTwinWordReceive (seq : W16) (payload : List Byte) (crc : W32) (item : MirrorIn) (s : State) : Result :=
  s.run (doTwinWordReceive seq payload crc item)

/-- TWIN_RETRY_REQUEST (R57): every word from that number onward again. -/
def doTwinRetryRequest (seq : W16) (s : Part) : Part :=
  let t := s.now
  let ws := (s.twin.txWords.filter fun w => decide ((w.1 - seq).toNat < 32768)).reverse
  ((s.each ws fun s w => s.emit (.twinWord w.1 w.2)).onTwin fun x => { x with lastTx := if ws.isEmpty then x.lastTx else t }).finish
def execTwinRetryRequest (seq : W16) (s : State) : Result := s.run (doTwinRetryRequest seq)

/-- TWIN_KEEPALIVE_TIMER (R58): in every state and power state. -/
def doTwinKeepaliveTimer (s : Part) : Part := if s.ended s.twin.lastTx 1000 then (s.twinSend .nothing).finish else s.finish
def execTwinKeepaliveTimer (s : State) : Result := s.run doTwinKeepaliveTimer

/-- TWIN_LOSS (R58, R264). -/
def doTwinLoss (s : Part) : Part :=
  if s.twinSilent then s.twinLost.settle else s.finish
def execTwinLoss (s : State) : Result := s.run doTwinLoss

/-- PROBE_TIMEOUT (R264): the claim, or with TAKEOVER_EN = 0 the report of the twin's rank. A die that fails while the pair resynchronises
takes the pair (R269). -/
def doProbeTimeout (s : Part) : Part :=
  if s.twin.st = 1#3 && !s.twin.lostTold && s.ended s.twin.winAt s.twin.probeTmo.toNat then
    let s := s.guest 0 2 0x0501 [0]
    if s.twin.unsynced then
      ((((s.onTwin fun x => { x with lostTold := true }).adoptMembers).reportPair).releaseOrders).settle
    else if s.twin.takeoverEn then s.claimTwin.settle
    else
      let s := (s.onTwin fun x => { x with lostTold := true }).adoptMembers
      ((s.reportTwin false).releaseOrders).settle
  else s.finish
def execProbeTimeout (s : State) : Result := s.run doProbeTimeout

/-- CLAIM_TIMEOUT (R265): lane groups that have not acknowledged are down. -/
def doClaimTimeout (s : Part) : Part :=
  if s.claimOver then s.claimExpire.settle else s.finish
def execClaimTimeout (s : State) : Result := s.run doClaimTimeout

/-- RESYNC_DONE (R269). -/
def doResyncDone (s : Part) : Part :=
  if s.twin.st = 5#3 then
    ((((s.twinState 0).onTwin fun x => { x with resyncCnt := satAdd x.resyncCnt 1 }).guest 0 2 0x0504 [1])).finish
  else s.finish
def execResyncDone (s : State) : Result := s.run doResyncDone

/-- Writes of an image to checkpoint storage are on their way (R275). -/
def NocPort.checkpointing (p : NocPort) : Bool :=
  p.waiting.any (fun r => r.use.inner == .snapshot) || p.openReqs.any fun o => o.2.1.use.inner == .snapshot

/-- SNAPSHOT_DRAIN_DONE (R275, R276): no write of the image is outstanding. -/
def doSnapshotDrainDone (s : Part) : Part :=
  if s.twin.snapBusy && !(s.noc 8).checkpointing then
    (s.onTwin fun x => { x with snapBusy := false, snapStep := x.snapOf, snapBytes := 884992 }).finish
  else s.finish
def execSnapshotDrainDone (s : State) : Result := s.run doSnapshotDrainDone

end Sys2Proof.Machine
end

