-- ==== Sys2Proof/Machine/Dispatch.lean ====
section
/-! DEFINITION. The effect of every command, one arm per constructor. -/

namespace Sys2Proof.Machine

open Sys2Proof

def exec (i : Instr) (s : State) : Host.Outcome State Fault Refusal :=
  match i with
  | .drainDescriptorIssue dp desc src => Sys2Proof.Machine.execDrainDescriptorIssue dp desc src s
  | .drainStart dp => Sys2Proof.Machine.execDrainStart dp s
  | .accRowArrive dp row ue => Sys2Proof.Machine.execAccRowArrive dp row ue s
  | .verdictToGatehouse msgid => Sys2Proof.Machine.execVerdictToGatehouse msgid s
  | .lodgeCloseDone lodge bad => Sys2Proof.Machine.execLodgeCloseDone lodge bad s
  | .lodgeTimeout lodge => Sys2Proof.Machine.execLodgeTimeout lodge s
  | .lodgeLateWindowEnd lodge => Sys2Proof.Machine.execLodgeLateWindowEnd lodge s
  | .lodgeGrantTimeout lodge => Sys2Proof.Machine.execLodgeGrantTimeout lodge s
  | .pairTimeout dp => Sys2Proof.Machine.execPairTimeout dp s
  | .coreFault dp level => Sys2Proof.Machine.execCoreFault dp level s
  | .softwareFence dp => Sys2Proof.Machine.execSoftwareFence dp s
  | .unfence dp => Sys2Proof.Machine.execUnfence dp s
  | .opsRowTransfer dp err => Sys2Proof.Machine.execOpsRowTransfer dp err s
  | .nocReadData port tag data err => Sys2Proof.Machine.execNocReadData port tag data err s
  | .nocWriteResponse port tag err => Sys2Proof.Machine.execNocWriteResponse port tag err s
  | .nocCreditReturn port chan => Sys2Proof.Machine.execNocCreditReturn port chan s
  | .larderRequest requester consumer credits => Sys2Proof.Machine.execLarderRequest requester consumer credits s
  | .larderGrant => Sys2Proof.Machine.execLarderGrant s
  | .larderStarvation part => Sys2Proof.Machine.execLarderStarvation part s
  | .pcsTxCredit lg => Sys2Proof.Machine.execPcsTxCredit lg s
  | .flitReceive lg hdr payload fecUe => Sys2Proof.Machine.execFlitReceive lg hdr payload fecUe s
  | .pcsActiveRise lg => Sys2Proof.Machine.execPcsActiveRise lg s
  | .pcsActiveFall lg => Sys2Proof.Machine.execPcsActiveFall lg s
  | .pcsLaneChange lg up => Sys2Proof.Machine.execPcsLaneChange lg up s
  | .pcsLpAck lg => Sys2Proof.Machine.execPcsLpAck lg s
  | .linkRetry lg rfrom => Sys2Proof.Machine.execLinkRetry lg rfrom s
  | .linkInit lg bufs => Sys2Proof.Machine.execLinkInit lg bufs s
  | .linkCreditReturn lg crets => Sys2Proof.Machine.execLinkCreditReturn lg crets s
  | .linkKeepalive lg src => Sys2Proof.Machine.execLinkKeepalive lg src s
  | .claim lg src cid => Sys2Proof.Machine.execClaim lg src cid s
  | .claimAck lg cid => Sys2Proof.Machine.execClaimAck lg cid s
  | .claimRefused lg cid => Sys2Proof.Machine.execClaimRefused lg cid s
  | .fencedId lg cid => Sys2Proof.Machine.execFencedId lg cid s
  | .linkRetryTimer lg => Sys2Proof.Machine.execLinkRetryTimer lg s
  | .linkIdleTimer lg => Sys2Proof.Machine.execLinkIdleTimer lg s
  | .laneRetryTimer lg => Sys2Proof.Machine.execLaneRetryTimer lg s
  | .send m => Sys2Proof.Machine.execSend m s
  | .arrive m => Sys2Proof.Machine.execArrive m s
  | .put m => Sys2Proof.Machine.execPut m s
  | .getreq m => Sys2Proof.Machine.execGetreq m s
  | .getrsp m => Sys2Proof.Machine.execGetrsp m s
  | .tetherChunkArrive m err lerr => Sys2Proof.Machine.execTetherChunkArrive m err lerr s
  | .tetherBroadcastArrive m err lerr => Sys2Proof.Machine.execTetherBroadcastArrive m err lerr s
  | .verdict src msgid misfit clipcnt => Sys2Proof.Machine.execVerdict src msgid misfit clipcnt s
  | .resend m => Sys2Proof.Machine.execResend m s
  | .ack src msgid xfer status => Sys2Proof.Machine.execAck src msgid xfer status s
  | .nack src msgid xfer status epoch => Sys2Proof.Machine.execNack src msgid xfer status epoch s
  | .messageTimeout src msgid => Sys2Proof.Machine.execMessageTimeout src msgid s
  | .ackTimeout msgid => Sys2Proof.Machine.execAckTimeout msgid s
  | .epochHoldExpiry src msgid => Sys2Proof.Machine.execEpochHoldExpiry src msgid s
  | .courierUpFlit r => Sys2Proof.Machine.execCourierUpFlit r s
  | .courierDownFlit r => Sys2Proof.Machine.execCourierDownFlit r s
  | .courierBudgetExpiry g => Sys2Proof.Machine.execCourierBudgetExpiry g s
  | .courierIssue g value => Sys2Proof.Machine.execCourierIssue g value s
  | .probe src => Sys2Proof.Machine.execProbe src s
  | .probeAns src => Sys2Proof.Machine.execProbeAns src s
  | .stall c cause => Sys2Proof.Machine.execStall c cause s
  | .prep c => Sys2Proof.Machine.execPrep c s
  | .prepAck c => Sys2Proof.Machine.execPrepAck c s
  | .arm c => Sys2Proof.Machine.execArm c s
  | .armAck c => Sys2Proof.Machine.execArmAck c s
  | .go c => Sys2Proof.Machine.execGo c s
  | .delivered c => Sys2Proof.Machine.execDelivered c s
  | .complete c => Sys2Proof.Machine.execComplete c s
  | .loss c takeover => Sys2Proof.Machine.execLoss c takeover s
  | .skip c => Sys2Proof.Machine.execSkip c s
  | .drop c reason => Sys2Proof.Machine.execDrop c reason s
  | .abandon c => Sys2Proof.Machine.execAbandon c s
  | .spare c img => Sys2Proof.Machine.execSpare c img s
  | .shadow c offset data crc items => Sys2Proof.Machine.execShadow c offset data crc items s
  | .installed c => Sys2Proof.Machine.execInstalled c s
  | .redraw c step ident epoch => Sys2Proof.Machine.execRedraw c step ident epoch s
  | .hopBudgetExpiry ctx chunk => Sys2Proof.Machine.execHopBudgetExpiry ctx chunk s
  | .startWindowExpiry ctx chunk => Sys2Proof.Machine.execStartWindowExpiry ctx chunk s
  | .stallWindowExpiry ctx chunk => Sys2Proof.Machine.execStallWindowExpiry ctx chunk s
  | .replayQuietEnd group chunk => Sys2Proof.Machine.execReplayQuietEnd group chunk s
  | .replayAnswerTimeout group chunk rank => Sys2Proof.Machine.execReplayAnswerTimeout group chunk rank s
  | .managerLost group => Sys2Proof.Machine.execManagerLost group s
  | .tetherDeposit ws => Sys2Proof.Machine.execTetherDeposit ws s
  | .twinWordReceive seq payload crc item => Sys2Proof.Machine.execTwinWordReceive seq payload crc item s
  | .twinRetryRequest seq => Sys2Proof.Machine.execTwinRetryRequest seq s
  | .twinKeepaliveTimer => Sys2Proof.Machine.execTwinKeepaliveTimer s
  | .twinLoss => Sys2Proof.Machine.execTwinLoss s
  | .probeTimeout => Sys2Proof.Machine.execProbeTimeout s
  | .claimTimeout => Sys2Proof.Machine.execClaimTimeout s
  | .snapshotDrainDone => Sys2Proof.Machine.execSnapshotDrainDone s
  | .fetchLit q => Sys2Proof.Machine.execFetchLit q s
  | .fetchAdd q => Sys2Proof.Machine.execFetchAdd q s
  | .fetchAddg q => Sys2Proof.Machine.execFetchAddg q s
  | .fetchSpool q => Sys2Proof.Machine.execFetchSpool q s
  | .fetchMem q => Sys2Proof.Machine.execFetchMem q s
  | .putOpen q err => Sys2Proof.Machine.execPutOpen q err s
  | .putWord q => Sys2Proof.Machine.execPutWord q s
  | .getOpen q err => Sys2Proof.Machine.execGetOpen q err s
  | .sendOpen q err => Sys2Proof.Machine.execSendOpen q err s
  | .cvt q err => Sys2Proof.Machine.execCvt q err s
  | .statEnv q => Sys2Proof.Machine.execStatEnv q s
  | .statAcc q => Sys2Proof.Machine.execStatAcc q s
  | .statFill q => Sys2Proof.Machine.execStatFill q s
  | .statClear q => Sys2Proof.Machine.execStatClear q s
  | .scaleSym q => Sys2Proof.Machine.execScaleSym q s
  | .scaleAsym q => Sys2Proof.Machine.execScaleAsym q s
  | .scaleCalw q => Sys2Proof.Machine.execScaleCalw q s
  | .tetherOpen q err => Sys2Proof.Machine.execTetherOpen q err s
  | .tetherOpenDone ctx => Sys2Proof.Machine.execTetherOpenDone ctx s
  | .tetherClose q => Sys2Proof.Machine.execTetherClose q s
  | .bcast q => Sys2Proof.Machine.execBcast q s
  | .courier q => Sys2Proof.Machine.execCourier q s
  | .waitev q => Sys2Proof.Machine.execWaitev q s
  | .waitevTimeout q => Sys2Proof.Machine.execWaitevTimeout q s
  | .signal q => Sys2Proof.Machine.execSignal q s
  | .eventSignal q event status => Sys2Proof.Machine.execEventSignal q event status s
  | .stepmark q => Sys2Proof.Machine.execStepmark q s
  | .fence q => Sys2Proof.Machine.execFence q s
  | .loopSet q => Sys2Proof.Machine.execLoopSet q s
  | .loopEnd q => Sys2Proof.Machine.execLoopEnd q s
  | .br q => Sys2Proof.Machine.execBr q s
  | .call q => Sys2Proof.Machine.execCall q s
  | .ret q => Sys2Proof.Machine.execRet q s
  | .halt q => Sys2Proof.Machine.execHalt q s
  | .seqStart q => Sys2Proof.Machine.execSeqStart q s
  | .seqResume q => Sys2Proof.Machine.execSeqResume q s
  | .seqStop q => Sys2Proof.Machine.execSeqStop q s
  | .spoolLoad q => Sys2Proof.Machine.execSpoolLoad q s
  | .hostStepmark value => Sys2Proof.Machine.execHostStepmark value s
  | .stepSourceWrite value => Sys2Proof.Machine.execStepSourceWrite value s
  | .registerWrite offset value => Sys2Proof.Machine.execRegisterWrite offset value s
  | .misalignedAccess offset wr => Sys2Proof.Machine.execMisalignedAccess offset wr s
  | .unmappedAccess offset wr => Sys2Proof.Machine.execUnmappedAccess offset wr s
  | .rcRead offset => Sys2Proof.Machine.execRcRead offset s
  | .lowHalfRead offset => Sys2Proof.Machine.execLowHalfRead offset s
  | .irqSet value => Sys2Proof.Machine.execIrqSet value s
  | .routeDataWrite value => Sys2Proof.Machine.execRouteDataWrite value s
  | .roleDataWrite value => Sys2Proof.Machine.execRoleDataWrite value s
  | .streamIndexWrite value => Sys2Proof.Machine.execStreamIndexWrite value s
  | .streamCommit value => Sys2Proof.Machine.execStreamCommit value s
  | .signIndexWrite value => Sys2Proof.Machine.execSignIndexWrite value s
  | .signData3Write value => Sys2Proof.Machine.execSignData3Write value s
  | .calIndexWrite value => Sys2Proof.Machine.execCalIndexWrite value s
  | .calHiWrite value => Sys2Proof.Machine.execCalHiWrite value s
  | .calLoRead => Sys2Proof.Machine.execCalLoRead s
  | .guestbookConfigure base size => Sys2Proof.Machine.execGuestbookConfigure base size s
  | .heartbeat count => Sys2Proof.Machine.execHeartbeat count s
  | .heartbeatExpiry => Sys2Proof.Machine.execHeartbeatExpiry s
  | .drainTimeout => Sys2Proof.Machine.execDrainTimeout s
  | .loadImage tag off len work => Sys2Proof.Machine.execLoadImage tag off len work s
  | .activate tag mask => Sys2Proof.Machine.execActivate tag mask s
  | .restartKeeper tag keeper => Sys2Proof.Machine.execRestartKeeper tag keeper s
  | .groupForm tag img flags => Sys2Proof.Machine.execGroupForm tag img flags s
  | .groupDissolve tag group => Sys2Proof.Machine.execGroupDissolve tag group s
  | .spareList tag group list => Sys2Proof.Machine.execSpareList tag group list s
  | .calLoad tag first entries => Sys2Proof.Machine.execCalLoad tag first entries s
  | .traceMask tag mask => Sys2Proof.Machine.execTraceMask tag mask s
  | .adopt tag digest => Sys2Proof.Machine.execAdopt tag digest s
  | .unpark tag step => Sys2Proof.Machine.execUnpark tag step s
  | .mailboxUnknownCommand opc tag => Sys2Proof.Machine.execMailboxUnknownCommand opc tag s
  | .mailboxCommandEnd => Sys2Proof.Machine.execMailboxCommandEnd s
  | .keeperWatchdog k => Sys2Proof.Machine.execKeeperWatchdog k s
  | .protectionFault k addr pc => Sys2Proof.Machine.execProtectionFault k addr pc s
  | .keeperRestartDone k crcOk => Sys2Proof.Machine.execKeeperRestartDone k crcOk s
  | .activationCancel => Sys2Proof.Machine.execActivationCancel s
  | .powerLineChange levels => Sys2Proof.Machine.execPowerLineChange levels s
  | .powerResponseApplied => Sys2Proof.Machine.execPowerResponseApplied s
  | .powerReleaseExpiry => Sys2Proof.Machine.execPowerReleaseExpiry s
  | .timeBaseSample tb => Sys2Proof.Machine.execTimeBaseSample tb s
  | .tbValidLoss => Sys2Proof.Machine.execTbValidLoss s
  | .domainIdleGate d => Sys2Proof.Machine.execDomainIdleGate d s
  | .domainWakeDone d => Sys2Proof.Machine.execDomainWakeDone d s
  | .powerOnReset => Sys2Proof.Machine.execPowerOnReset s
  | .packageReset => Sys2Proof.Machine.execPackageReset s
  | .softwareWarmReset value => Sys2Proof.Machine.execSoftwareWarmReset value s
  | .larderBistDone pass => Sys2Proof.Machine.execLarderBistDone pass s
  | .laneBringupTimeout => Sys2Proof.Machine.execLaneBringupTimeout s
  | .joinTimeout group => Sys2Proof.Machine.execJoinTimeout group s
  | .idcode => Sys2Proof.Machine.execIdcode s
  | .bypass code tdi => Sys2Proof.Machine.execBypass code tdi s
  | .regAccess wr offset data => Sys2Proof.Machine.execRegAccess wr offset data s
  | .larderAccess wr line data => Sys2Proof.Machine.execLarderAccess wr line data s
  | .fwcCtrl halt resume => Sys2Proof.Machine.execFwcCtrl halt resume s
  | .fuseRead => Sys2Proof.Machine.execFuseRead s
  | .fuseProg bit supply => Sys2Proof.Machine.execFuseProg bit supply s
  | .bistRun go pass => Sys2Proof.Machine.execBistRun go pass s
  | .testReset cold => Sys2Proof.Machine.execTestReset cold s
  | .lastFlitAccepted msgid => Sys2Proof.Machine.execLastFlitAccepted msgid s
  | .resyncDone => Sys2Proof.Machine.execResyncDone s
  | .illegalOpcode q err => Sys2Proof.Machine.execIllegalOpcode q err s

end Sys2Proof.Machine
end

