-- ==== Sys2Proof/Safety.lean ====
section
/-! DEFINITION. What counts as safe, what every command keeps, and the words in which claims are stated. -/

namespace Sys2Proof.Machine

open Sys2Proof

/-- A step that does not stop. -/
def StepSafe (s : State) : Prop := ∃ t, step s = .next t

/-- The Larder's RAM keeps its canonical form. -/
abbrev RamInv (s : State) : Prop := Memory.wf s.larderRam = true

/-- Every fuse blown in `s` is blown in `t` (R328). -/
def FusesKept (s t : State) : Prop := ∀ i, bitOf s.fuses i = true → bitOf t.fuses i = true

/-- The command answers a next state of whose part P holds; queue, Larder RAM and fuses stand. -/
def Acts (c : Instr) (s : State) (P : Part → Prop) : Prop :=
  ∃ t, exec c s = .next t ∧ t.pending = s.pending ∧ t.larderRam = s.larderRam ∧ t.fuses = s.fuses ∧ P t.part

/-- The command answers exactly the part `x`, stamped and numbered (R64); queue, Larder RAM and fuses stand. Each command being one event with a
stamp and a number of its own is the model's reading (log entries 17 and 54). -/
def Becomes (c : Instr) (s : State) (x : Part) : Prop := exec c s = .next { s with part := x.finish }

/-- Waits for a place that another command can free. -/
def WaitFor.place : WaitFor → Bool
  | .cvt _ _ => true
  | .xfer _ _ => true
  | .tetherBusy _ _ => true
  | _ => false

/-- No sequencer waits for a place. -/
abbrev Part.NoPlaceWait (s : Part) : Prop := ∀ q, q < 9 → (s.seq q).wait.place = false

/-- No descriptor is held outside a full drain port (R141), no message waits to go out (R31, R192), and no chunk of the part to itself is
on its way (R194 step 1). -/
abbrev Part.NoneHeld (s : Part) : Prop := (∀ p ∈ s.dps, p.2.offers = []) ∧ s.gh.outbox = [] ∧ s.gh.loops = []

/-- Nothing else can go on when a command ends: no CONTROL message to send, no transfer open, nothing held, no sequencer waiting for a place. -/
abbrev Part.Calm (s : Part) : Prop := s.ctlOut = [] ∧ s.gh.xfers = [] ∧ s.NoneHeld ∧ s.NoPlaceWait

/-- Calm but for open SEND transfers, which a command's end leaves alone. -/
abbrev Part.Still (s : Part) : Prop := s.ctlOut = [] ∧ (∀ k ∈ s.gh.xfers, k.2.kind = .send) ∧ s.NoneHeld ∧ s.NoPlaceWait

/-- Waits at a FENCE. -/
def WaitFor.isFence : WaitFor → Bool
  | .fence _ => true
  | _ => false

/-- No sequencer waits at a FENCE. -/
abbrev Part.NoFence (s : Part) : Prop := ∀ q, q < 9 → (s.seq q).wait.isFence = false

/-- A lane group has nothing to send. -/
abbrev LaneGroup.Empty (l : LaneGroup) : Prop := l.queued = 0 ∧ l.again = [] ∧ l.linkq = []

/-- A lane group cannot send now: its link is not active, or it has no PCS credit (R53). -/
abbrev LaneGroup.Stuck (l : LaneGroup) : Prop := l.active = false ∨ l.pcsCr = 0

/-- A sequencer issues the word at its PC (R230). -/
abbrev Part.Issues (s : Part) (q : Nat) (w : W64) : Prop := (s.seq q).st = 1#3 ∧ s.glob.fencedSelf = false ∧ (s.seq q).word = some w

/-- The sequencer has gone on to its next word; the others stand. -/
def Part.GoesOn (s t : Part) (q : Nat) : Prop :=
  (t.seq q).st = 1#3 ∧ (t.seq q).pc = (s.seq q).pc + 1 ∧ (t.seq q).instrCnt = satAdd (s.seq q).instrCnt 1 ∧ ∀ n, n ≠ q → t.seq n = s.seq n

/-- Register `i` holds `v`, G0 zero (R227); the other registers stand. -/
def Seq.Wrote (x y : Seq) (i : Nat) (v : W64) : Prop := y.reg i = (if i = 0 then 0 else v) ∧ ∀ j, j ≠ i → y.reg j = x.reg j

/-- Beside its registers only the place and the mode of the sequencer change. -/
def Seq.Keeps (x y : Seq) : Prop :=
  y = { x with st := y.st, pc := y.pc, instrCnt := y.instrCnt, regs := y.regs, wait := y.wait, waitOpc := y.waitOpc, waitEv := y.waitEv }

/-- The stamp of a command (R64; log entries 17 and 54 say how the model reads it): nothing else of the global group changes. A command that
finds nothing to act on leaves this stamp alone behind (log entry 22): that is what `Becomes` of the part itself says, the statements' "nothing
happens". -/
def Part.Stamped (s t : Part) : Prop := t.glob = { s.glob with acted := some s.now, evSeq := s.glob.evSeq + 1 }

/-- Of the Gatehouse, lane group `g` alone has become `l`; beside it the stamp. -/
def Part.LaneBecame (s t : Part) (g : Nat) (l : LaneGroup) : Prop :=
  t.lg g = l ∧ (∀ m, m ≠ g → t.lg m = s.lg m) ∧ t = { s with gh := { s.gh with lgs := t.gh.lgs }, glob := t.glob } ∧ s.Stamped t

/-- Of the twin block only its record of words sent may change (R18). -/
def Part.TwinTold (s t : Part) : Prop :=
  t.twin = { s.twin with txWords := t.twin.txWords, txSeq := t.twin.txSeq, lastTx := t.twin.lastTx }

/-- The same where changes of the credit counters may have gone to the twin meanwhile (R18). -/
def Part.LaneBecameTold (s t : Part) (g : Nat) (l : LaneGroup) : Prop :=
  ({ s with twin := t.twin, out := t.out } : Part).LaneBecame t g l ∧ s.TwinTold t

/-- A LINK flit wakes the link of its lane group from its low-power state (R56). -/
def Part.linkWoken (s : Part) (g : Nat) : Part := if (s.lg g).lowPower then { s with out := .wakeReq g :: s.out } else s

/-- What the twin may have been told: mirror words, and nothing while the mirror is off (R18, R57). -/
def Part.TwinOnly (s t : Part) : Prop := s.TwinTold t ∧ (¬ (s.twin.mirrorEn = true ∧ (s.twin.st = 0#3 ∨ s.twin.st = 5#3)) → t.twin = s.twin ∧ t.out = s.out)

/-- The window of an open lodge has ended, so that its close is due before anything else (R125, R138). -/
abbrev Part.LodgeOver (s : Part) (k : Nat) : Prop := (s.lodge k).phase = .opened ∧ (s.lodge k).since + s.ssu.tmo.toNat ≤ s.now

/-- Of power and clocks only the stamps from which hold times count have changed (R313). -/
def Part.HoldsOnly (s t : Part) : Prop := t.pwr = { s.pwr with trigAt := t.pwr.trigAt }

/-- The command changes sequencers alone: beside them the stamps of hold times, the twin's record, what has been sent, and the stamp. -/
def Part.OnlySeqs (s t : Part) : Prop :=
  t = { s with seqs := t.seqs, pwr := t.pwr, twin := t.twin, out := t.out, glob := t.glob } ∧ s.HoldsOnly t ∧ s.TwinTold t ∧ s.Stamped t

/-- An access has been refused: ACCESS_ERR is set, and unless it stood already the record holds offset, direction and cause (R337). Beside
them only the read data and the stamp change. -/
def Part.Refused (s t : Part) (cause off : Nat) (wr : Bool) : Prop :=
  t.glob.accessErr = true
    ∧ (s.glob.accessErr = false → fld t.glob.errInfo 0 20 = off ∧ bitOf t.glob.errInfo 20 = wr ∧ fld t.glob.errInfo 21 3 = cause)
    ∧ (s.glob.accessErr = true → t.glob.errInfo = s.glob.errInfo)
    ∧ t = { s with glob := { s.glob with accessErr := true, errInfo := t.glob.errInfo, rdata := t.glob.rdata, acted := t.glob.acted, evSeq := t.glob.evSeq } }

/-- Changes go to the twin as mirror words now (R18, R57): the mirror is on, and the twin is paired or in resynchronisation. -/
abbrev Part.Mirrors (s : Part) : Prop := s.twin.mirrorEn = true ∧ (s.twin.st = 0#3 ∨ s.twin.st = 5#3)

/-- CONTROL messages to `dst` go over lane group `g`, whose link sleeps: they wait in its queue. -/
abbrev Part.Reaches (s : Part) (dst : FabId) (g : Nat) : Prop :=
  s.answers dst = false ∧ s.route dst 0xFF = some g ∧ (s.lg g).active = false ∧ 1 < (s.lg g).queues.length

/-- A CONTROL message, the next that this instance sends, has joined the queue of VL1 (R198, R273); the other lane groups stand. -/
def Part.Told (s t : Part) (g : Nat) (m : CtlMsg) : Prop :=
  (t.lg g).queues = (s.lg g).queues.set 1 ((s.lg g).queues.getD 1 []
      ++ mkFlits .control 1 m.dst m.c.src (s.roleOf m.dst) s.gh.nextMsg (controlBody m.kind m.c.group m.c.jseq m.c.seq m.c.chunk m.c.rank m.rest))
    ∧ ∀ n, n ≠ g → t.lg n = s.lg n

/-- A report of this instance to a manager (R273). -/
def Part.reportOf (s : Part) (g : Group) (kind group seq chunk rank ext : Nat) : CtlMsg :=
  .mk' g.mgrId kind
    { src := s.ownId, group := BitVec.ofNat 16 group, jseq := 0, seq := BitVec.ofNat 16 seq, chunk := BitVec.ofNat 32 chunk,
      rank := BitVec.ofNat 16 rank } ext

/-- Of the contexts, number `c` alone has become `y`. -/
def Part.CtxBecame (s t : Part) (c : Nat) (y : Option Ctx) : Prop := t.ctxOf 0 c = y ∧ (∀ j, j ≠ c → t.ctxOf 0 j = s.ctxOf 0 j) ∧ t.twinCtxs = s.twinCtxs

/-- One Larder request has been made (R30), the next that this instance numbers. -/
def Part.Asked (s t : Part) (consumer credits : Nat) : Prop :=
  ∃ r, t.larder.queue = s.larder.queue ++ [r] ∧ r.id = s.nextId ∧ r.consumer = consumer ∧ r.credits = credits
    ∧ r.part = s.larder.active.owners.getD consumer 0

/-- A write is asked for at a NoC port, piece by piece (R50, R51): it waits there, or is out. -/
def NocPort.Asks (p : NocPort) (off : Nat) (data : List Byte) (use : NocUse) : Prop :=
  ∀ w ∈ pieces (data.length / 64 + 2) off data.length,
    let r : NocReq := ⟨true, w.1, w.2, (data.drop (w.1 - off)).take w.2, use, []⟩
    r ∈ p.waiting ∨ ∃ k ∈ p.openReqs, k.2.1 = r.ready

/-- The requests in which a write of these bytes joins the queue of a NoC port (R50, R51). -/
def writeReqs (off : Nat) (data : List Byte) (use : NocUse) : List NocReq :=
  (pieces (data.length / 64 + 2) off data.length).map fun w => ⟨true, w.1, w.2, (data.drop (w.1 - off)).take w.2, use, []⟩

/-- A note is written at its place through Gatehouse NoC port 0 (R296). -/
def Part.Noted (t : Part) (place : W64) (data : List Byte) : Prop := ∃ n, (t.noc 8).Asks place.toNat data (.note n)

/-- An entry is written at its place through Gatehouse NoC port 0, its SEQ field by a write of its own (R310). -/
def Part.Logged (t : Part) (place : W64) (e : GuestEntry) : Prop :=
  ∃ n, (t.noc 8).Asks place.toNat (slice e.bytes 0 8) (.guest n) ∧ (t.noc 8).Asks (place.toNat + 12) (slice e.bytes 12 20) (.guest n)
    ∧ (t.noc 8).Asks (place.toNat + 8) (slice e.bytes 8 4) (.guest n)

/-- Of the NoC ports Gatehouse port 0 alone may change, through which notes and entries go (R296, R310); without a ring in die memory it
stands too. -/
def Part.NocsStand (s t : Part) : Prop :=
  (∀ n, n ≠ 8 → t.noc n = s.noc n) ∧ (s.gb.base = 0 → s.mb.noteBase = 0 → t.noc 8 = s.noc 8)

/-- What commands of the fabric leave alone: drain ports, sequencers, the Courier, the SSU, and NoC ports but for the firmware's writes. -/
def Part.UnitsStand (s t : Part) : Prop :=
  t.dps = s.dps ∧ t.seqs = s.seqs ∧ s.NocsStand t ∧ t.courier = s.courier ∧ t.ssu = s.ssu

/-- The manager of group `n` has appended an order to its journal (R271), and its orders wait until the twin has accepted it. -/
def Part.Ordered (s t : Part) (n : Nat) (g g' : Group) (kind : Byte) (rank chunk data : Nat) : Prop :=
  t.group n = some g' ∧ g'.nextJseq = g.nextJseq + 1 ∧ g'.unaccepted = g.unaccepted ++ [g.nextJseq]
    ∧ g'.journal = (g.journal ++ [JEntry.mk g.nextJseq kind false s.glob.step (BitVec.ofNat 16 rank) (BitVec.ofNat 32 chunk) (BitVec.ofNat 112 data)]).drop
        (g.journal.length + 1 - 4096)

/-- K0 runs here as the manager of group `n`, shadowed by the twin (R37, R271). -/
abbrev Part.Manages (s : Part) (n : Nat) (g : Group) : Prop :=
  s.group n = some g ∧ g.manager = true ∧ g.frozen = false ∧ s.mb.runs 0 = true ∧ s.shadowed = true

end Sys2Proof.Machine
end

