-- ==== Sys2Proof/WellFormed.lean ====
section
/-! DEFINITION. Commands whose operands the interfaces can carry: rows of 128 elements (R42), NoC beats of whole 64 B units (R50),
buffers of 1 to 4,096 credits (R27), flit payloads of 240 B (R197), six virtual lanes (R203), twin payloads of 26 B (R57), lines and
fuses that exist (R27, R328). exec gives a command that is not well-formed a meaning all the same. -/

namespace Sys2Proof

def Instr.wf (i : Instr) : Bool :=
  match i with
  | .drainDescriptorIssue _ _ _ => true
  | .drainStart _ => true
  | .accRowArrive _ row _ => decide (row.length = 128)
  | .verdictToGatehouse m => m.lerr.inLarder
  | .lodgeCloseDone _ bad => bad.all fun r => decide (r.1 < 128) && r.2.inLarder
  | .lodgeTimeout _ => true
  | .lodgeLateWindowEnd _ => true
  | .lodgeGrantTimeout _ => true
  | .pairTimeout _ => true
  | .coreFault _ _ => true
  | .softwareFence _ => true
  | .unfence _ => true
  | .opsRowTransfer _ _ => true
  | .nocReadData _ _ data _ => decide (64 ≤ data.length) && decide (data.length ≤ 1024) && decide (data.length % 64 = 0)
  | .nocWriteResponse _ _ _ => true
  | .nocCreditReturn _ _ => true
  | .larderRequest _ _ credits => decide (1 ≤ credits) && decide (credits ≤ 4096)
  | .larderGrant => true
  | .larderStarvation _ => true
  | .pcsTxCredit _ => true
  | .flitReceive _ _ payload _ => decide (payload.length = 240)
  | .pcsActiveRise _ => true
  | .pcsActiveFall _ => true
  | .pcsLaneChange _ _ => true
  | .pcsLpAck _ => true
  | .linkRetry _ _ => true
  | .linkInit _ bufs => decide (bufs.length = 6)
  | .linkCreditReturn _ crets => decide (crets.length = 6)
  | .linkKeepalive _ _ => true
  | .claim _ _ _ => true
  | .claimAck _ _ => true
  | .claimRefused _ _ => true
  | .fencedId _ _ => true
  | .linkRetryTimer _ => true
  | .linkIdleTimer _ => true
  | .laneRetryTimer _ => true
  | .send _ => true
  | .arrive _ => true
  | .put _ => true
  | .getreq _ => true
  | .getrsp _ => true
  | .tetherChunkArrive _ _ _ => true
  | .tetherBroadcastArrive _ _ _ => true
  | .verdict _ _ _ _ => true
  | .resend _ => true
  | .ack _ _ _ _ => true
  | .nack _ _ _ _ _ => true
  | .messageTimeout _ _ => true
  | .ackTimeout _ => true
  | .epochHoldExpiry _ _ => true
  | .courierUpFlit r => decide (r.data.length ≤ 16)
  | .courierDownFlit r => decide (r.data.length ≤ 16)
  | .courierBudgetExpiry _ => true
  | .courierIssue _ _ => true
  | .probe _ => true
  | .probeAns _ => true
  | .stall _ _ => true
  | .prep _ => true
  | .prepAck _ => true
  | .arm _ => true
  | .armAck _ => true
  | .go _ => true
  | .delivered _ => true
  | .complete _ => true
  | .loss _ _ => true
  | .skip _ => true
  | .drop _ _ => true
  | .abandon _ => true
  | .spare _ img => decide (img.members.length ≤ 65536)
  | .shadow _ _ _ _ _ => true
  | .installed _ => true
  | .redraw _ _ _ _ => true
  | .hopBudgetExpiry _ chunk => decide (chunk < 4294967296)
  | .startWindowExpiry _ chunk => decide (chunk < 4294967296)
  | .stallWindowExpiry _ chunk => decide (chunk < 4294967296)
  | .replayQuietEnd _ _ => true
  | .replayAnswerTimeout _ _ _ => true
  | .managerLost _ => true
  | .tetherDeposit _ => true
  | .twinWordReceive _ payload _ _ => decide (payload.length = 26)
  | .twinRetryRequest _ => true
  | .twinKeepaliveTimer => true
  | .twinLoss => true
  | .probeTimeout => true
  | .claimTimeout => true
  | .snapshotDrainDone => true
  | .fetchLit _ => true
  | .fetchAdd _ => true
  | .fetchAddg _ => true
  | .fetchSpool _ => true
  | .fetchMem _ => true
  | .putOpen _ _ => true
  | .putWord _ => true
  | .getOpen _ _ => true
  | .sendOpen _ _ => true
  | .cvt _ _ => true
  | .statEnv _ => true
  | .statAcc _ => true
  | .statFill _ => true
  | .statClear _ => true
  | .scaleSym _ => true
  | .scaleAsym _ => true
  | .scaleCalw _ => true
  | .tetherOpen _ _ => true
  | .tetherOpenDone _ => true
  | .tetherClose _ => true
  | .bcast _ => true
  | .courier _ => true
  | .waitev _ => true
  | .waitevTimeout _ => true
  | .signal _ => true
  | .eventSignal _ _ _ => true
  | .stepmark _ => true
  | .fence _ => true
  | .loopSet _ => true
  | .loopEnd _ => true
  | .br _ => true
  | .call _ => true
  | .ret _ => true
  | .halt _ => true
  | .seqStart _ => true
  | .seqResume _ => true
  | .seqStop _ => true
  | .spoolLoad _ => true
  | .hostStepmark _ => true
  | .stepSourceWrite _ => true
  | .registerWrite _ _ => true
  | .misalignedAccess _ _ => true
  | .unmappedAccess _ _ => true
  | .rcRead _ => true
  | .lowHalfRead _ => true
  | .irqSet _ => true
  | .routeDataWrite _ => true
  | .roleDataWrite _ => true
  | .streamIndexWrite _ => true
  | .streamCommit _ => true
  | .signIndexWrite _ => true
  | .signData3Write _ => true
  | .calIndexWrite _ => true
  | .calHiWrite _ => true
  | .calLoRead => true
  | .guestbookConfigure _ _ => true
  | .heartbeat _ => true
  | .heartbeatExpiry => true
  | .drainTimeout => true
  | .loadImage _ _ _ _ => true
  | .activate _ _ => true
  | .restartKeeper _ _ => true
  | .groupForm _ img _ => match img with | some g => decide (g.members.length ≤ 65536) | none => true
  | .groupDissolve _ _ => true
  | .spareList _ _ _ => true
  | .calLoad _ _ entries => match entries with | some es => decide (es.length ≤ 65536) | none => true
  | .traceMask _ _ => true
  | .adopt _ _ => true
  | .unpark _ _ => true
  | .mailboxUnknownCommand _ _ => true
  | .mailboxCommandEnd => true
  | .keeperWatchdog _ => true
  | .protectionFault _ _ _ => true
  | .keeperRestartDone _ _ => true
  | .activationCancel => true
  | .powerLineChange _ => true
  | .powerResponseApplied => true
  | .powerReleaseExpiry => true
  | .timeBaseSample _ => true
  | .tbValidLoss => true
  | .domainIdleGate _ => true
  | .domainWakeDone _ => true
  | .powerOnReset => true
  | .packageReset => true
  | .softwareWarmReset _ => true
  | .larderBistDone _ => true
  | .laneBringupTimeout => true
  | .joinTimeout _ => true
  | .idcode => true
  | .bypass _ _ => true
  | .regAccess _ _ _ => true
  | .larderAccess _ line _ => decide (line.toNat < 786432)
  | .fwcCtrl _ _ => true
  | .fuseRead => true
  | .fuseProg bit _ => decide (bit.toNat < 2048)
  | .bistRun _ _ => true
  | .testReset _ => true
  | .lastFlitAccepted _ => true
  | .resyncDone => true
  | .illegalOpcode _ _ => true

end Sys2Proof
end

