-- ==== Sys2Proof/Certificates/Slice0/Obligations.lean ====
section
/-! DEFINITION. The statements for the provers. -/

open Sys2Proof Sys2Proof.Machine

/-! ## Sequencers -/

/-- R227, R234, R235: FETCH LIT, ADD, ADDG and SPOOL write GA and go on; G0 stays zero. That ADDG takes any IMM is the model's choice
(log entry 33). -/
def Obligations.FetchWritesRegister : Prop :=
  ∀ (q : Fin 9) (w : W64) (s : State), s.part.Issues q.val w → IW.opc w = 1 → fld w 21 11 = 0 →
    let x := s.part.seq q.val
    let ok (v : W64) (t : Part) : Prop :=
      s.part.GoesOn t q.val ∧ x.Wrote (t.seq q.val) (IW.ga w) v ∧ x.Keeps (t.seq q.val) ∧ s.part.OnlySeqs t
    (IW.sub w = 0 → IW.gb w = 0 → IW.gc w = 0 → Acts (.fetchLit q) s (ok (BitVec.ofInt 64 (IW.imm w))))
    ∧ (IW.sub w = 1 → IW.gc w = 0 → Acts (.fetchAdd q) s (ok (x.reg (IW.gb w) + BitVec.ofInt 64 (IW.imm w))))
    ∧ (IW.sub w = 2 → Acts (.fetchAddg q) s (ok (x.reg (IW.gb w) + x.reg (IW.gc w))))
    ∧ (∀ v, IW.sub w = 3 → IW.gb w = 0 → IW.gc w = 0 → fld w 47 17 = 0 → x.spool[fld w 32 15]? = some v → Acts (.fetchSpool q) s (ok v))

/-- R237, R313: STAT ENV, ACC and FILL read a stream's Envelope into GA. That the SSU wakes, here and below, is an inference: R313 names
descriptor issue, step mark and CAL write alone (log entry 55).
R112, R237: SCALE SYM and ASYM compute a SCALE, and a ZP, for a stream from bfloat16 operands into GA.
R118, R133, R237: STAT CLEAR asks that a stream's ring be cleared, a failed twin's of that number with it (log entry 32); SCALE CALW writes the pending calibration copy and marks the entry
changed, the active copy standing. -/
def Obligations.Statistics : Prop :=
  (∀ (q : Fin 9) (w : W64) (s : State), s.part.Issues q.val w → IW.opc w = 9 → fld w 33 31 = 0 → IW.gb w = 0 → IW.gc w = 0 →
    let x := s.part.seq q.val
    let e := s.part.env (fld w 21 12)
    let ok (v : W64) (t : Part) : Prop :=
      s.part.GoesOn t q.val ∧ x.Wrote (t.seq q.val) (IW.ga w) v ∧ x.Keeps (t.seq q.val) ∧ (s.part.wake .ssu).OnlySeqs t
    (IW.sub w = 0 → Acts (.statEnv q) s (ok (statWord (e.eHi, e.eLo) (decide (0 < e.ring.length)))))
    ∧ (IW.sub w = 1 → Acts (.statAcc q) s (ok (match e.acc with | some a => statWord a true | none => statWord (0x7F80, 0xFF80) false)))
    ∧ (IW.sub w = 2 → Acts (.statFill q) s (ok (BitVec.ofNat 64 e.ring.length))))
  ∧ (∀ (q : Fin 9) (w : W64) (f : Fmt) (s : State), s.part.Issues q.val w → IW.opc w = 10 → fld w 38 26 = 0 → IW.gc w = 0 →
    Fmt.ofCode (fld w 21 5) = some f →
    let x := s.part.seq q.val
    let v := x.reg (IW.gb w)
    let p := (s.part.stream (fld w 26 12)).pow2
    let ok (r : W64) (t : Part) : Prop :=
      s.part.GoesOn t q.val ∧ x.Wrote (t.seq q.val) (IW.ga w) r ∧ x.Keeps (t.seq q.val) ∧ (s.part.wake .ssu).OnlySeqs t
    (IW.sub w = 0 → f.isLedger = true →
      Acts (.scaleSym q) s (ok (BitVec.ofNat 64 (symScale f p ((ofBf16 (BitVec.ofNat 16 (fld v 0 16))).fin?.map Q.abs)).toNat)))
    ∧ (IW.sub w = 1 → f = .int8 ∨ f = .uint8 →
      Acts (.scaleAsym q) s (ok (let c := asymScale f p (ofBf16 (BitVec.ofNat 16 (fld v 0 16))).fin? (ofBf16 (BitVec.ofNat 16 (fld v 16 16))).fin?
        BitVec.ofNat 64 (c.1.toNat + c.2.toNat * 2 ^ 16)))))
  ∧ (∀ (q : Fin 9) (w : W64) (s : State), s.part.Issues q.val w →
    let x := s.part.seq q.val
    let frame (t : Part) : Prop :=
      s.part.GoesOn t q.val ∧ (t.seq q.val).regs = x.regs ∧ x.Keeps (t.seq q.val) ∧ (s.part.wake .ssu).OnlySeqs { t with ssu := s.part.ssu }
    (IW.opc w = 9 → fld w 33 31 = 0 → fld w 6 12 = 0 → IW.sub w = 3 →
      Acts (.statClear q) s fun t => frame t ∧ t.env (fld w 21 12) = { s.part.env (fld w 21 12) with clearReq := true }
        ∧ (∀ n, n ≠ fld w 21 12 → t.env n = s.part.env n)
        ∧ t.ssu.twinEnvs = (s.part.ssu.twinEnvs.map fun e => if e.1 = fld w 21 12 then (e.1, { e.2 with clearReq := true }) else e)
        ∧ t.ssu = { s.part.ssu with envs := t.ssu.envs, twinEnvs := t.ssu.twinEnvs })
    ∧ (IW.opc w = 10 → fld w 38 26 = 0 → IW.sub w = 2 → IW.ga w = 0 → fld w 21 17 = 0 →
      Acts (.scaleCalw q) s fun t =>
        let i := fld (x.reg (IW.gc w)) 0 16
        frame t ∧ tabGet t.ssu.calP i 0 = Cal.mask (x.reg (IW.gb w)) ∧ i ∈ t.ssu.calChanged
        ∧ (∀ n, n ≠ i → tabGet t.ssu.calP n 0 = tabGet s.part.ssu.calP n 0)
        ∧ t.ssu = { s.part.ssu with calP := t.ssu.calP, calChanged := t.ssu.calChanged }))

/-- R239, R255: LOOP SET, LOOP END, BR, CALL, RET and HALT: where PC goes, and the loop counter, the return stack or the mode; LOOP END with its
counter at 0, CALL on a full stack, RET on an empty one and a taken branch beyond the Spool fault with LOOP, STACK and SPOOL;
a CALL that breaks both faults with STACK (log entry 33). -/
def Obligations.ControlFlow : Prop :=
  ∀ (q : Fin 9) (w : W64) (s : State), s.part.Issues q.val w →
    let x := s.part.seq q.val
    let tgt := fld w 21 15
    let goes (pc : BitVec 15) (t : Part) : Prop :=
      (t.seq q.val).st = 1#3 ∧ (t.seq q.val).pc = pc ∧ (t.seq q.val).instrCnt = satAdd x.instrCnt 1
        ∧ x.Keeps { t.seq q.val with lcs := x.lcs, stack := x.stack } ∧ (∀ n, n ≠ q.val → t.seq n = s.part.seq n) ∧ s.part.OnlySeqs t
    let stops (code : Byte) (t : Part) : Prop :=
      t.seq q.val = { x with st := 4, fcode := code, faultPc := x.pc, wait := .none, waitOpc := 0, waitEv := 0 }
        ∧ bitOf t.irq.seqFault q.val = true ∧ ∀ n, n ≠ q.val → t.seq n = s.part.seq n
    let same (t : Part) : Prop := (t.seq q.val).regs = x.regs ∧ (t.seq q.val).lcs = x.lcs ∧ (t.seq q.val).stack = x.stack
    (IW.opc w = 0x20 → bitOf w 18 = false → fld w 6 12 = 0 → fld w 21 24 ≠ 0 → fld w 45 19 = 0 →
      Acts (.loopSet q) s fun t => goes (x.pc + 1) t ∧ (t.seq q.val).lc (fld w 19 2) = BitVec.ofNat 24 (fld w 21 24)
        ∧ (∀ j, j ≠ fld w 19 2 → (t.seq q.val).lc j = x.lc j) ∧ (t.seq q.val).regs = x.regs ∧ (t.seq q.val).stack = x.stack)
    ∧ (IW.opc w = 0x20 → bitOf w 18 = true → IW.gb w = 0 → fld w 36 28 = 0 →
      (x.lc (fld w 19 2) = 1#24 →
        Acts (.loopEnd q) s fun t => goes (x.pc + 1) t ∧ (t.seq q.val).lc (fld w 19 2) = 0#24 ∧ (t.seq q.val).regs = x.regs)
      ∧ (x.lc (fld w 19 2) ≠ 0#24 → x.lc (fld w 19 2) ≠ 1#24 → tgt < x.spool.length →
        Acts (.loopEnd q) s fun t => goes (BitVec.ofNat 15 tgt) t ∧ (t.seq q.val).lc (fld w 19 2) = x.lc (fld w 19 2) - 1
          ∧ x.Wrote (t.seq q.val) (IW.ga w) (x.reg (IW.ga w) + x.reg (IW.gc w)))
      ∧ (x.lc (fld w 19 2) = 0#24 → Acts (.loopEnd q) s (stops 9))
      ∧ (x.lc (fld w 19 2) ≠ 0#24 → x.lc (fld w 19 2) ≠ 1#24 → x.spool.length ≤ tgt → Acts (.loopEnd q) s (stops 3)))
    ∧ (IW.opc w = 0x21 → IW.gc w = 0 → IW.sub w ≠ 7 → fld w 36 28 = 0 → (IW.sub w < 4 → IW.gb w = 0) → (IW.sub w = 0 → IW.ga w = 0) →
      (brHolds (IW.sub w) (x.reg (IW.ga w)) (x.reg (IW.gb w)) = false → Acts (.br q) s fun t => goes (x.pc + 1) t ∧ same t)
      ∧ (brHolds (IW.sub w) (x.reg (IW.ga w)) (x.reg (IW.gb w)) = true → tgt < x.spool.length →
        Acts (.br q) s fun t => goes (BitVec.ofNat 15 tgt) t ∧ same t)
      ∧ (brHolds (IW.sub w) (x.reg (IW.ga w)) (x.reg (IW.gb w)) = true → x.spool.length ≤ tgt → Acts (.br q) s (stops 3)))
    ∧ (IW.opc w = 0x22 → fld w 6 15 = 0 → fld w 36 28 = 0 → x.stack.length < 8 → tgt < x.spool.length →
      Acts (.call q) s fun t => goes (BitVec.ofNat 15 tgt) t ∧ (t.seq q.val).stack = (x.pc + 1) :: x.stack ∧ (t.seq q.val).regs = x.regs)
    ∧ (IW.opc w = 0x22 → fld w 6 15 = 0 → fld w 36 28 = 0 → 8 ≤ x.stack.length → Acts (.call q) s (stops 5))
    ∧ (IW.opc w = 0x22 → fld w 6 15 = 0 → fld w 36 28 = 0 → x.stack.length < 8 → x.spool.length ≤ tgt → Acts (.call q) s (stops 3))
    ∧ (∀ r rest, IW.opc w = 0x23 → fld w 6 58 = 0 → x.stack = r :: rest → r.toNat < x.spool.length →
      Acts (.ret q) s fun t => goes r t ∧ (t.seq q.val).stack = rest ∧ (t.seq q.val).regs = x.regs)
    ∧ (∀ r rest, IW.opc w = 0x23 → fld w 6 58 = 0 → x.stack = r :: rest → x.spool.length ≤ r.toNat → Acts (.ret q) s (stops 3))
    ∧ (IW.opc w = 0x23 → fld w 6 58 = 0 → x.stack = [] → Acts (.ret q) s (stops 5))
    ∧ (IW.opc w = 0x24 → fld w 6 12 = 0 → fld w 26 38 = 0 →
      Acts (.halt q) s fun t => (t.seq q.val).st = 3#3 ∧ (t.seq q.val).hcode = BitVec.ofNat 8 (fld w 18 8) ∧ (t.seq q.val).pc = x.pc + 1
        ∧ bitOf t.irq.seqHalt q.val = true ∧ (∀ n, n ≠ q.val → t.seq n = s.part.seq n)
        ∧ t = { s.part with seqs := t.seqs, pwr := t.pwr, twin := t.twin, out := t.out, glob := t.glob, irq := { s.part.irq with seqHalt := t.irq.seqHalt } }
        ∧ s.part.HoldsOnly t)

/-- R240 to R242, R313: a status reaches an event of a sequencer that waits on no event: the count rises up to 255, the first non-OK status
stays, an overflow is one; the sequencer's unit wakes: its Waystation as R313 says, for sequencer 8 the Gatehouse by the model's choice
(log entry 55).
R241, R242: a status that brings an event to the count its waiting sequencer asks for ends the wait, unless the window has ended: GA gets
the status, N are taken, a status of an emptied event returns to 0. -/
def Obligations.EventSignals : Prop :=
  (∀ (q : Fin 9) (ev : Byte) (st : W64) (s : State), (∀ e n o g, (s.part.seq q.val).wait ≠ .event e n o g) →
    Acts (.eventSignal q ev st) s fun t =>
      let x := s.part.seq q.val
      let c := (x.event ev.toNat).1
      let old := (x.event ev.toNat).2
      (t.seq q.val).event ev.toNat
          = (if c = 255#8 then 255#8 else c + 1,
             if fld old 8 8 ≠ 0 then old else if c = 255#8 then evOverflow ev.toNat else st)
        ∧ (∀ n, n ≠ ev.toNat → (t.seq q.val).event n = x.event n)
        ∧ t.seq q.val = { x with events := (t.seq q.val).events } ∧ (∀ n, n ≠ q.val → t.seq n = s.part.seq n)
        ∧ (s.part.wake (if q.val < 8 then .ws (Fin.ofNat 8 q.val) else .gh)).OnlySeqs t)
  ∧ (∀ (q : Fin 9) (ev : Byte) (st : W64) (n ga : Nat) (tmo : Option Nat) (s : State),
    let x := s.part.seq q.val
    x.wait = .event ev.toNat n tmo ga → (∀ e, tmo = some e → s.part.now < e) → n ≤ (x.event ev.toNat).1.toNat + 1 → (x.event ev.toNat).1 ≠ 255#8 →
    fld (x.event ev.toNat).2 8 8 = 0 →
    Acts (.eventSignal q ev st) s fun t =>
      s.part.GoesOn t q.val ∧ x.Wrote (t.seq q.val) ga st
        ∧ ((t.seq q.val).event ev.toNat).1.toNat = (x.event ev.toNat).1.toNat + 1 - n
        ∧ ((t.seq q.val).event ev.toNat).2 = (if (x.event ev.toNat).1.toNat + 1 = n then 0 else st))

/-- R242: WAITEV takes what is there, and waits where it is not: until a signal brings the event to its count, or its window ends. At the end
of its window it gets the TIMEOUT status with what the event holds, and takes nothing, also where a signal in the nanosecond of the end would
bring the count. -/
def Obligations.Waitev : Prop :=
  (∀ (q : Fin 9) (w : W64) (s : State), s.part.Issues q.val w → IW.opc w = 0x18 → IW.gb w = 0 → IW.gc w = 0 → fld w 58 6 = 0 → fld w 26 8 ≠ 0 →
    let x := s.part.seq q.val
    let ev := fld w 18 8
    let n := fld w 26 8
    (n ≤ (x.event ev).1.toNat →
      Acts (.waitev q) s fun t => s.part.GoesOn t q.val ∧ x.Wrote (t.seq q.val) (IW.ga w) (x.event ev).2
        ∧ ((t.seq q.val).event ev).1.toNat = (x.event ev).1.toNat - n
        ∧ ((t.seq q.val).event ev).2 = (if (x.event ev).1.toNat = n then 0 else (x.event ev).2)
        ∧ (∀ m, m ≠ ev → (t.seq q.val).event m = x.event m) ∧ s.part.OnlySeqs t)
    ∧ ((x.event ev).1.toNat < n →
      Acts (.waitev q) s fun t => (t.seq q.val).st = 2#3 ∧ (t.seq q.val).pc = x.pc ∧ (t.seq q.val).regs = x.regs ∧ (t.seq q.val).events = x.events
        ∧ (t.seq q.val).wait = .event ev n (if fld w 34 24 = 0 then none else some (s.part.now + fld w 34 24 * 1000)) (IW.ga w)
        ∧ (∀ m, m ≠ q.val → t.seq m = s.part.seq m) ∧ s.part.OnlySeqs t))
  ∧ (∀ (q : Fin 9) (ev n t0 ga : Nat) (s : State),
    let x := s.part.seq q.val
    x.wait = .event ev n (some t0) ga → t0 ≤ s.part.now →
    Acts (.waitevTimeout q) s fun t =>
      s.part.GoesOn t q.val ∧ x.Wrote (t.seq q.val) ga (evStatus 6 0xFF ev (x.event ev).1.toNat) ∧ (t.seq q.val).events = x.events
        ∧ s.part.OnlySeqs t)
  ∧ (∀ (q : Fin 9) (ev : Byte) (st : W64) (n ga : Nat) (tmo : Option Nat) (s : State),
    let x := s.part.seq q.val
    let c := (x.event ev.toNat).1.toNat
    let sum := if fld (x.event ev.toNat).2 8 8 ≠ 0 then (x.event ev.toNat).2 else st
    x.wait = .event ev.toNat n tmo ga → c < 255 →
    ((∀ e, tmo = some e → s.part.now < e) → c + 1 < n →
      Acts (.eventSignal q ev st) s fun t => (t.seq q.val).wait = x.wait ∧ (t.seq q.val).st = x.st ∧ (t.seq q.val).pc = x.pc
        ∧ (t.seq q.val).regs = x.regs ∧ ((t.seq q.val).event ev.toNat).1.toNat = c + 1)
    ∧ ((∀ e, tmo = some e → s.part.now < e) → n ≤ c + 1 →
      Acts (.eventSignal q ev st) s fun t => s.part.GoesOn t q.val ∧ x.Wrote (t.seq q.val) ga sum
        ∧ ((t.seq q.val).event ev.toNat).1.toNat = c + 1 - n ∧ ((t.seq q.val).event ev.toNat).2 = (if c + 1 = n then 0 else sum))
    ∧ (∀ e, tmo = some e → e ≤ s.part.now →
      Acts (.eventSignal q ev st) s fun t => s.part.GoesOn t q.val ∧ x.Wrote (t.seq q.val) ga (evStatus 6 0xFF ev.toNat c)
        ∧ ((t.seq q.val).event ev.toNat).1.toNat = c + 1 ∧ ((t.seq q.val).event ev.toNat).2 = sum))

/-- R240, R241, R243, R296, R313: SIGNAL to a sequencer, itself among them, counts an event there with the sender's number, a full event
overflowing; its unit wakes, the Gatehouse for sequencer 8 by the model's choice (log entry 55). SIGNAL to target 9 leaves a note in K1's
ring while K1 runs and the ring has room (log entries 5 and 34). -/
def Obligations.SignalReaches : Prop :=
  ∀ (q : Fin 9) (w : W64) (s : State), s.part.Issues q.val w → IW.opc w = 0x19 → fld w 6 12 = 0 → fld w 38 26 = 0 →
    let k := fld w 18 4
    let ev := fld w 22 8
    let goes (t : Part) : Prop := (t.seq q.val).st = 1#3 ∧ (t.seq q.val).pc = (s.part.seq q.val).pc + 1 ∧ (t.seq q.val).regs = (s.part.seq q.val).regs
    (k < 9 → k = q.val ∨ (∀ e n o g, (s.part.seq k).wait ≠ .event e n o g) →
      Acts (.signal q) s fun t =>
        let c := ((s.part.seq k).event ev).1
        let old := ((s.part.seq k).event ev).2
        goes t ∧ ((t.seq k).event ev).1 = (if c = 255#8 then 255#8 else c + 1)
          ∧ ((t.seq k).event ev).2 = (if fld old 8 8 ≠ 0 then old else if c = 255#8 then evOverflow ev else evStatus 5 (fld w 30 8) q.val 0)
          ∧ (∀ i, i ≠ ev → (t.seq k).event i = (s.part.seq k).event i) ∧ (∀ n, n ≠ k → n ≠ q.val → t.seq n = s.part.seq n)
          ∧ (s.part.wake (if k < 8 then .ws (Fin.ofNat 8 k) else .gh)).OnlySeqs t)
    ∧ (k = 9 → s.part.mb.runs 1 = true → s.part.mb.noteBase ≠ 0 → (s.part.mb.noteWr - s.part.mb.noteRd).toNat ≠ 2 ^ fld s.part.mb.noteSize 0 5 →
      Acts (.signal q) s fun t => goes t ∧ t.mb = { s.part.mb with noteWr := s.part.mb.noteWr + 1 }
        ∧ t.Noted (s.part.mb.noteBase + BitVec.ofNat 64 (s.part.mb.noteWr.toNat % 2 ^ fld s.part.mb.noteSize 0 5 * 16))
            (toBytes 8 s.part.now ++ [1, 0, BitVec.ofNat 8 q.val, BitVec.ofNat 8 ev, BitVec.ofNat 8 (fld w 30 8), 0, 0, 0]))

/-- R254: FENCE goes on once every scope it names is complete, clears the flag and faults with NOC where a word store has failed, and waits
otherwise. A FENCE that waits for word stores ends with the last response. -/
def Obligations.FenceWaitsForScopes : Prop :=
  (∀ (q : Fin 9) (w : W64) (s : State), s.part.Issues q.val w → IW.opc w = 0x1B → fld w 6 12 = 0 → fld w 22 42 = 0 → fld w 18 4 ≠ 0 →
    let x := s.part.seq q.val
    let done : Prop := (bitOf w 18 = true → x.stores = 0) ∧ (bitOf w 19 = true → x.drains = 0)
      ∧ (bitOf w 20 = true → ∀ k ∈ s.part.gh.xfers, k.2.seq ≠ q.val)
      ∧ (bitOf w 21 = true → ∀ k ∈ s.part.ctxs, ∀ o, k.2.owner = some o → o.1 ≠ q.val)
    (done → (bitOf w 18 = false ∨ x.wstoreFlag = false) →
      Acts (.fence q) s fun t => s.part.GoesOn t q.val ∧ (t.seq q.val).regs = x.regs ∧ x.Keeps (t.seq q.val) ∧ s.part.OnlySeqs t)
    ∧ (done → bitOf w 18 = true → x.wstoreFlag = true →
      Acts (.fence q) s fun t => (t.seq q.val).st = 4#3 ∧ (t.seq q.val).fcode = 7#8 ∧ (t.seq q.val).faultPc = x.pc ∧ (t.seq q.val).wstoreFlag = false
        ∧ bitOf t.irq.seqFault q.val = true)
    ∧ (¬ done → Acts (.fence q) s fun t => (t.seq q.val).st = 2#3 ∧ (t.seq q.val).pc = x.pc ∧ (t.seq q.val).wait = .fence (fld w 18 4) ∧ s.part.OnlySeqs t))
  ∧ (∀ (n : Fin 10) (tag : Byte) (err : BitVec 2) (q : Fin 9) (off len : Nat) (data : List Byte) (k : Nat) (s : State),
    let x := s.part.seq q.val
    s.part.Calm → (∀ m, m < 9 → m ≠ q.val → (s.part.seq m).wait.isFence = false) → (s.part.noc n.val).waiting = [] →
    tabFind (s.part.noc n.val).openReqs tag.toNat = some (⟨true, off, len, data, .store q.val, []⟩, k) → x.wait = .fence 1 →
    (1 < x.stores → Acts (.nocWriteResponse n tag err) s fun t => (t.seq q.val).wait = .fence 1 ∧ (t.seq q.val).pc = x.pc)
    ∧ (x.stores = 1 → err = 0 → x.wstoreFlag = false → Acts (.nocWriteResponse n tag err) s fun t =>
        s.part.GoesOn t q.val ∧ (t.seq q.val).regs = x.regs)
    ∧ (x.stores = 1 → (err ≠ 0 ∨ x.wstoreFlag = true) → Acts (.nocWriteResponse n tag err) s fun t =>
        (t.seq q.val).st = 4#3 ∧ (t.seq q.val).fcode = 7#8 ∧ (t.seq q.val).faultPc = x.pc ∧ (t.seq q.val).wstoreFlag = false
          ∧ bitOf t.irq.seqFault q.val = true))

/-- R253: STEPMARK off the step source goes on when its step has been reached, and waits before that; at the source it marks
the next step, and any other step faults with STEP.
R64, R138, R253, R335, R336: a host step mark of the next step, the host being the source: the step number, its stamp, the pending SSU
copies and partition set, and the role epochs come into force; a write of any other value, or while the host is not the source, is refused
with CAUSE 2 (R337). For an instance with no group and no held message that is not draining.
R336, R337: a write of STEP_SRC takes effect in the AON cycle after it; the reserved values are refused with CAUSE 4. -/
def Obligations.StepMarks : Prop :=
  (∀ (q : Fin 9) (w : W64) (s : State), s.part.Issues q.val w → s.part.Calm → IW.opc w = 0x1A → IW.gb w = 0 → IW.gc w = 0 → fld w 50 14 = 0 →
    let m : W32 := BitVec.ofNat 32 (fld w 18 32 + ((s.part.seq q.val).reg (IW.ga w)).toNat)
    (s.part.glob.stepSrcEff.toNat ≠ q.val → (s.part.glob.step - m).toNat < 2 ^ 31 →
      Acts (.stepmark q) s fun t => s.part.GoesOn t q.val ∧ t.glob.step = s.part.glob.step ∧ s.part.OnlySeqs t)
    ∧ (s.part.glob.stepSrcEff.toNat ≠ q.val → 2 ^ 31 ≤ (s.part.glob.step - m).toNat →
      Acts (.stepmark q) s fun t => (t.seq q.val).st = 2#3 ∧ (t.seq q.val).pc = (s.part.seq q.val).pc ∧ (t.seq q.val).wait = .stepmark m ∧ s.part.OnlySeqs t)
    ∧ (s.part.glob.stepSrcEff.toNat = q.val → m ≠ s.part.glob.step + 1 →
      Acts (.stepmark q) s fun t => (t.seq q.val).st = 4#3 ∧ (t.seq q.val).fcode = 8#8 ∧ t.glob.step = s.part.glob.step)
    ∧ (s.part.glob.stepSrcEff.toNat = q.val → m = s.part.glob.step + 1 → s.part.groups = [] → s.part.gh.helds = [] → s.part.mb.st ≠ 4#4 →
      Acts (.stepmark q) s fun t => (t.seq q.val).st = 1#3 ∧ (t.seq q.val).pc = (s.part.seq q.val).pc + 1 ∧ (t.seq q.val).regs = (s.part.seq q.val).regs
        ∧ t.glob.step = m ∧ t.glob.stepTime = s.part.markStamp ∧ t.ssu.streams = s.part.ssu.streamsP))
  ∧ (∀ (v : W32) (s : State), s.part.shut = false → s.part.Calm → s.part.glob.stepSrcEff ≠ 15#4 ∨ v ≠ s.part.glob.step + 1 →
    Acts (.hostStepmark v) s fun t => s.part.Refused t 2 0x10C true)
  ∧ (∀ (v : W32) (s : State), s.part.shut = false → s.part.Calm → s.part.groups = [] → s.part.gh.helds = [] → s.part.mb.st ≠ 4#4 →
    s.part.glob.stepSrcEff = 15#4 → v = s.part.glob.step + 1 →
    Acts (.hostStepmark v) s fun t =>
      t.glob.step = v ∧ t.glob.stepTime = s.part.markStamp ∧ (∀ a, s.part.glob.acted = some a → a < t.glob.stepTime)
        ∧ t.ssu.streams = s.part.ssu.streamsP ∧ t.ssu.signs = s.part.ssu.signsP ∧ t.ssu.calChanged = []
        ∧ (s.part.larder.pendingSet.ok = true → t.larder.active = s.part.larder.pendingSet)
        ∧ (∀ e, s.part.gh.epochP = some e → t.gh.epochOwn = e.1 ∧ t.gh.epochTwin = e.2))
  ∧ (∀ (v : W32) (s : State), s.part.shut = false →
    (fld v 0 4 < 9 ∨ fld v 0 4 = 15 → Acts (.stepSourceWrite v) s fun t =>
      t.glob = { s.part.glob with stepSrc := BitVec.ofNat 4 (fld v 0 4), acted := t.glob.acted, evSeq := t.glob.evSeq } ∧ t = { s.part with glob := t.glob })
    ∧ (9 ≤ fld v 0 4 → fld v 0 4 ≤ 14 → s.part.glob.accessErr = false → Acts (.stepSourceWrite v) s fun t =>
      t.glob.stepSrc = s.part.glob.stepSrc ∧ t.glob.accessErr = true ∧ fld t.glob.errInfo 21 4 = 4 ∧ fld t.glob.errInfo 0 20 = 0x100
        ∧ t = { s.part with glob := t.glob }))

/-- R50, R235: FETCH MEM asks its NoC port for the line that holds its word and waits; PUT WORD goes on while its port reads the line into which the
eight bytes of GB are laid, since the NoC takes whole 64 B units alone (log entry 10). The request takes the lowest free tag (log entry 9). Both on an idle port with a credit. -/
def Obligations.WordAccesses : Prop :=
  ∀ (q : Fin 9) (w : W64) (s : State), s.part.Issues q.val w → (s.part.noc q.val).waiting = [] → (s.part.noc q.val).openReqs = [] →
    (s.part.noc q.val).merging = false → 1 ≤ (s.part.noc q.val).reqCr →
    let x := s.part.seq q.val
    let p := s.part.noc q.val
    let frame (t : Part) : Prop :=
      (∀ n, n ≠ q.val → t.seq n = s.part.seq n) ∧ (∀ n, n ≠ q.val → t.noc n = s.part.noc n) ∧ s.part.OnlySeqs { t with nocs := s.part.nocs }
    (let a := x.reg (IW.gb w) + BitVec.ofInt 64 (IW.imm w)
     IW.opc w = 1 → IW.sub w = 4 → fld w 21 11 = 0 → IW.gc w = 0 → a.toNat % 8 = 0 → a.toNat < 2 ^ 47 →
      Acts (.fetchMem q) s fun t => (t.seq q.val).st = 2#3 ∧ (t.seq q.val).pc = x.pc ∧ (t.seq q.val).wait = .fetch (IW.ga w)
        ∧ t.noc q.val = { p with reqCr := p.reqCr - 1,
                                 openReqs := [(0, (⟨false, a.toNat / 64 * 64, 64, [], .fetch q.val (a.toNat % 64), []⟩, 64))] }
        ∧ Emit.nocRead q.val 0 (a.toNat / 64 * 64) 64 ∈ t.out ∧ frame t)
    ∧ (let a := x.reg (IW.ga w) + BitVec.ofInt 64 (IW.imm w)
       let d := toBytes 8 (x.reg (IW.gb w)).toNat
       IW.opc w = 2 → bitOf w 18 = true → fld w 19 13 = 0 → IW.gc w = 0 → a.toNat % 8 = 0 → a.toNat < 2 ^ 47 →
      Acts (.putWord q) s fun t => (t.seq q.val).st = 1#3 ∧ (t.seq q.val).pc = x.pc + 1 ∧ (t.seq q.val).stores = x.stores + 1
        ∧ t.noc q.val = { p with reqCr := p.reqCr - 1, merging := true,
                                 openReqs := [(0, (⟨false, a.toNat / 64 * 64, 64, [], .merge a.toNat d (.store q.val), []⟩, 64))] }
        ∧ Emit.nocRead q.val 0 (a.toNat / 64 * 64) 64 ∈ t.out ∧ frame t)

/-- R229, R231: START, RESUME and STOP. A START clears registers, loop counters, return stack and events and sets PC; it is refused with
CAUSE 2 while the sequencer runs or waits or has no Spool. An instance that has been fenced starts and resumes nothing (R266).
So is a RESUME, and a LOAD while the sequencer runs or waits (R337).
R228: LOAD drops the old Spool and asks for LEN words of credits; LEN 0 or above 32,768 is refused. -/
def Obligations.SequencerControls : Prop :=
  (∀ (q : Fin 9) (s : State), s.part.shut = false →
    let x := s.part.seq q.val
    let idle : Prop := (x.st ≠ 1#3 ∧ x.st ≠ 2#3) ∧ x.loaded = true
    let live : Prop := s.part.glob.fencedSelf = false
    let others (t : Part) : Prop := ∀ n, n ≠ q.val → t.seq n = s.part.seq n
    let off := if q.val < 8 then 0x8000 + q.val * 0x400 else 0xA400
    (idle → live → Acts (.seqStart q) s fun t =>
      t.seq q.val = { x with st := 1, pc := x.startPc, regs := [], lcs := [], stack := [], events := [], wait := .none, waitOpc := 0, waitEv := 0 }
        ∧ others t)
    ∧ (idle → live → Acts (.seqResume q) s fun t => t.seq q.val = { x with st := 1 } ∧ others t)
    ∧ (idle → ¬ live → Becomes (.seqStart q) s s.part ∧ Becomes (.seqResume q) s s.part)
    ∧ (x.st = 1#3 ∨ x.st = 2#3 → Acts (.seqStop q) s fun t =>
        t.seq q.val = { x with st := 5, wait := .none, waitOpc := 0, waitEv := 0 } ∧ others t)
    ∧ (¬ idle → s.part.glob.accessErr = false → Acts (.seqStart q) s fun t =>
        t.seqs = s.part.seqs ∧ t.glob.accessErr = true ∧ fld t.glob.errInfo 21 4 = 2)
    ∧ (¬ idle → Acts (.seqStart q) s (fun t => s.part.Refused t 2 off true) ∧ Acts (.seqResume q) s fun t => s.part.Refused t 2 off true)
    ∧ (x.st = 1#3 ∨ x.st = 2#3 → Acts (.spoolLoad q) s fun t => s.part.Refused t 2 off true))
  ∧ (∀ (q : Fin 9) (s : State), s.part.shut = false →
    let x := s.part.seq q.val
    (x.st ≠ 1#3 ∧ x.st ≠ 2#3) →
    (x.lenReg ≠ 0#16 → x.lenReg.toNat ≤ 32768 → Acts (.spoolLoad q) s fun t =>
      (t.seq q.val).loaded = false ∧ (t.seq q.val).spool = [] ∧ (t.seq q.val).spoolBuf = some s.part.nextId
        ∧ (∃ r ∈ t.larder.queue, r.id = s.part.nextId ∧ r.credits = (8 * x.lenReg.toNat + 1023) / 1024 ∧ r.consumer = 64 + q.val)
        ∧ ∀ n, n ≠ q.val → t.seq n = s.part.seq n)
    ∧ (x.lenReg = 0#16 ∨ 32768 < x.lenReg.toNat → Acts (.spoolLoad q) s fun t => t.seqs = s.part.seqs ∧ t.glob.accessErr = true))

/-- R233, R255, R284: a word of no opcode, or one that a Larder error made unreadable, faults with ILLEGAL at its PC. -/
def Obligations.IllegalOpcodeFaults : Prop :=
  ∀ (q : Fin 9) (w : W64) (e : LarderErr) (s : State), s.part.Issues q.val w → (e.isUe = true ∨ IW.opc w ∉ opcodes) →
    Acts (.illegalOpcode q e) s fun t =>
      (t.seq q.val).st = 4#3 ∧ (t.seq q.val).fcode = 1#8 ∧ (t.seq q.val).faultPc = (s.part.seq q.val).pc ∧ (t.seq q.val).pc = (s.part.seq q.val).pc
        ∧ bitOf t.irq.seqFault q.val = true ∧ (∀ n, n ≠ q.val → t.seq n = s.part.seq n)
        ∧ (∀ line, e = .uncorrectable line → t.larder.ueCnt = satAdd s.part.larder.ueCnt 1 ∧ t.larder.ueSeen = true)

/-! ## Registers -/

/-- R10, R231, R225, R287, R292, R310, R330, R335, R338, R342, R344: a plain RW register takes the value written, its reserved bits read 0,
and nothing else changes.
R26: an enabled Courier withdraws the low-power request of its lane and wakes it. R12: the low half written waits, its reserved bits reading 0 (R5);
the high half written brings both into force at once: NOTE_BASE, CKPT, a program's SRC, the bases of a drain context, the bounds of an export
window. That a die offset keeps 47 bits is log entry 35's reading.
R340: floors, ceilings and owners go to the pending partition set. R225: WL_GH_IDENT takes its package and side, the die number standing. -/
def Obligations.RegisterWrites : Prop :=
  (∀ (v : W32) (s : State), s.part.shut = false → s.part.Calm →
    let p := s.part
    let ok (off : Nat) (m : W32) (x : Part) : Prop :=
      Becomes (.registerWrite (BitVec.ofNat 20 off) v) s x ∧ x.regRead off = some (v &&& m)
    ok 0x124 0xFFFFFFFF { p with glob := { p.glob with scratch := v } }
    ∧ ok 0x204 0xFFFF { p with irq := { p.irq with enable := v &&& 0xFFFF } }
    ∧ ok 0xA000 0xFF { p with gh := { p.gh with lgEn := BitVec.ofNat 8 v.toNat } }
    ∧ Becomes (.registerWrite 0xA008 v) s { p with gh := { p.gh with package := BitVec.ofNat 14 (fld v 2 14), side := bitOf v 16 } }
    ∧ ({ p with gh := { p.gh with package := BitVec.ofNat 14 (fld v 2 14), side := bitOf v 16 } } : Part).regRead 0xA008
        = some (BitVec.ofNat 32 (Config.die.toNat + fld v 2 14 * 4 + b2n (bitOf v 16) * 2 ^ 16))
    ∧ (∀ k < 16,
        let f : Part := { p with larder := { p.larder with pendingSet := { p.larder.pendingSet with floors := p.larder.pendingSet.floors.set k (fld v 0 16) } } }
        let c : Part := { p with larder := { p.larder with pendingSet := { p.larder.pendingSet with ceils := p.larder.pendingSet.ceils.set k (fld v 0 16) } } }
        Becomes (.registerWrite (BitVec.ofNat 20 (0x1100 + 0x10 * k)) v) s f ∧ Becomes (.registerWrite (BitVec.ofNat 20 (0x1104 + 0x10 * k)) v) s c
          ∧ (p.larder.showActive = false → k < p.larder.pendingSet.floors.length → f.regRead (0x1100 + 0x10 * k) = some (v &&& 0xFFFF))
          ∧ (p.larder.showActive = false → k < p.larder.pendingSet.ceils.length → c.regRead (0x1104 + 0x10 * k) = some (v &&& 0xFFFF)))
    ∧ (∀ k < 10, Acts (.registerWrite (BitVec.ofNat 20 (0x1200 + 4 * k)) v) s fun t =>
        (∀ i, t.larder.pendingSet.owners.getD i 0 = if i / 8 = k ∧ i < p.larder.pendingSet.owners.length then fld v (4 * (i % 8)) 4
            else p.larder.pendingSet.owners.getD i 0)
          ∧ t = { p with larder := { p.larder with pendingSet := { p.larder.pendingSet with owners := t.larder.pendingSet.owners } }, glob := t.glob } ∧ p.Stamped t)
    ∧ ok 0xA014 0x7FFF { p with gh := { p.gh with routeIdx := BitVec.ofNat 15 v.toNat } }
    ∧ ok 0xA01C 0x1FFFF { p with gh := { p.gh with roleIdx := BitVec.ofNat 17 v.toNat } }
    ∧ ok 0xA024 0xFFFFFFFF { p with gh := { p.gh with ackTmo := v } }
    ∧ ok 0xA028 0xFFFFFFFF { p with gh := { p.gh with msgTmo := v } }
    ∧ ok 0xA010 0xFFFFFFFF { p with gh := { p.gh with epochP := some (BitVec.ofNat 16 v.toNat, BitVec.ofNat 16 (v.toNat / 2 ^ 16)) } }
    ∧ (bitOf v 0 = false → ok 0xB000 0x1 { p with courier := { p.courier with en := false } })
    ∧ ok 0xB004 0xFFFFFFFF { p with courier := { p.courier with budget := v } }
    ∧ ok 0xC004 0xFFFFFFFF { p with ssu := { p.ssu with tmo := v } }
    ∧ ok 0xC028 0x1 { p with ssu := { p.ssu with showActive := bitOf v 0 } }
    ∧ ok 0xC080 0xFFF { p with ssu := { p.ssu with envIdx := BitVec.ofNat 12 v.toNat } }
    ∧ ok 0x1000 0x1 { p with larder := { p.larder with showActive := bitOf v 0 } }
    ∧ ok 0xD078 0x1F { p with mb := { p.mb with noteSize := v &&& 0x1F } }
    ∧ ok 0xD080 0xFFFFFFFF { p with mb := { p.mb with noteRd := v } }
    ∧ ok 0xD110 0xFFFFFFFF { p with gb := { p.gb with rd := v } }
    ∧ ok 0xD118 0x1FE { p with gb := { p.gb with mask := v &&& 0x1FE } }
    ∧ ok 0xD200 0x3 { p with twin := { p.twin with mirrorEn := bitOf v 0, takeoverEn := bitOf v 1 } }
    ∧ ok 0xD208 0xFFFFFFFF { p with twin := { p.twin with probeTmo := v } }
    ∧ ok 0xD20C 0xFFFFFFFF { p with twin := { p.twin with claimTmo := v } }
    ∧ ok 0xD308 0xFFFFFFFF { p with pwr := { p.pwr with dpHold := v } }
    ∧ ok 0xD30C 0xFFFFFFFF { p with pwr := { p.pwr with wsHold := v } }
    ∧ ok 0xD310 0xFFFFFFFF { p with pwr := { p.pwr with lgHold := v } }
    ∧ ok 0xD314 0xFFFFFFFF { p with pwr := { p.pwr with miscHold := v } }
    ∧ ok 0xD318 0xFFFFFFFF { p with pwr := { p.pwr with releaseTmo := v } }
    ∧ ok 0xD330 0xFFFFFFFF { p with pwr := { p.pwr with laneTmo := v } }
    ∧ (∀ w < 8, ok (0x8040 + 0x400 * w) 0xFFFFFFFF (p.onWs w fun y => { y with stallTmo := v }))
    ∧ (∀ q < 8, ok (0x800C + 0x400 * q) 0xFFFF (p.onSeq q fun x => { x with lenReg := BitVec.ofNat 16 v.toNat }))
    ∧ ok 0xA40C 0xFFFF (p.onSeq 8 fun x => { x with lenReg := BitVec.ofNat 16 v.toNat })
    ∧ (∀ n < 64, ok (0x4070 + 0x100 * n) 0xFFFFFF (p.onDp n fun d => { d with ctx0 := { d.ctx0 with pitch := v &&& 0xFFFFFF } }))
    ∧ (bitOf v 0 = true → Acts (.registerWrite 0xB000 v) s fun t =>
        let mine (g : Nat) : Bool := g == 0 || (g == 1 && decide ((p.lg 0).lanes = 0#4))
        t.courier = { p.courier with en := true } ∧ (∀ g, t.lg g = if mine g then { p.lg g with lpReq := false } else p.lg g)
          ∧ t.out = (([1, 0].filter fun g => mine g && (p.lg g).lowPower).map Emit.wakeReq) ++ p.out
          ∧ t = { p with courier := t.courier, gh := { p.gh with lgs := t.gh.lgs }, out := t.out, glob := t.glob } ∧ p.Stamped t))
  ∧ (∀ (v : W32) (s : State), s.part.shut = false → s.part.Calm →
    let p := s.part
    let low (off : Nat) (m : W32) : Prop :=
      Acts (.registerWrite (BitVec.ofNat 20 off) v) s fun t =>
        t.regRead off = some (v &&& m) ∧ (∃ l, t = { p with glob := { p.glob with lowHold := l, acted := t.glob.acted, evSeq := t.glob.evSeq } })
    let high (off : Nat) (m : W64) (value : Part → W64) (x : W64 → Part) : Prop :=
      ∀ l, tabFind p.glob.lowHold off = some l →
        Acts (.registerWrite (BitVec.ofNat 20 (off + 4)) v) s fun t =>
          value t = BitVec.ofNat 64 (l.toNat + v.toNat * 2 ^ 32) &&& m ∧ tabFind t.glob.lowHold off = none
            ∧ t = { x (value t) with glob := { p.glob with lowHold := t.glob.lowHold, acted := t.glob.acted, evSeq := t.glob.evSeq } }
    low 0xD070 0xFFFFFFFF ∧ low 0xD220 0xFFFFFFFF ∧ (∀ q < 8, low (0x8010 + 0x400 * q) 0xFFFFFFFF) ∧ low 0xA410 0xFFFFFFFF
      ∧ (∀ w < 32, low (0xA100 + 0x10 * w) 0xFFFFFFC7 ∧ low (0xA108 + 0x10 * w) 0xFFFFFFC0)
      ∧ (∀ n < 64, ∀ c < 3, ∀ r ∈ ([0x00, 0x08, 0x10, 0x18, 0x20, 0x28] : List Nat), low (0x4040 + 0x100 * n + 0x40 * c + r) 0xFFFFFFFF
          ∧ high (0x4040 + 0x100 * n + 0x40 * c + r) 0x7FFFFFFFFFFF (fun t => (((t.dp n).ctxK c).pair r).getD 0)
              (fun b => p.onDp n fun d => d.onCtxK c fun k => k.setPair r b))
      ∧ (∀ w < 32, high (0xA100 + 0x10 * w) 0x7FFFFFFFFFC7 (fun t => (tabGet t.gh.wins w .reset).base)
            (fun b => { p with gh := { p.gh with wins := tabMod p.gh.wins w .reset fun y => { y with base := b } } })
          ∧ high (0xA108 + 0x10 * w) 0x7FFFFFFFFFC0 (fun t => (tabGet t.gh.wins w .reset).limit)
            (fun b => { p with gh := { p.gh with wins := tabMod p.gh.wins w .reset fun y => { y with limit := b } } }))
      ∧ high 0xD070 0x7FFFFFFFFFFF (fun t => t.mb.noteBase) (fun b => { p with mb := { p.mb with noteBase := b } })
      ∧ high 0xD220 0x7FFFFFFFFFFF (fun t => t.twin.ckpt) (fun b => { p with twin := { p.twin with ckpt := b } })
      ∧ (∀ q < 8, high (0x8010 + 0x400 * q) 0x7FFFFFFFFFFF (fun t => (t.seq q).srcReg) (fun b => p.onSeq q fun x => { x with srcReg := b })))

/-- R10, R338, R340, R344: a 1 written to a W1C bit clears it, a 0 leaves it, and a summary is not cleared. -/
def Obligations.WriteOneToClear : Prop :=
  ∀ (v : W32) (s : State), s.part.shut = false → s.part.Calm →
    let p := s.part
    let i := p.irq
    Becomes (.registerWrite 0x200 v) s { p with irq :=
        { i with mailbox := i.mailbox && !bitOf v 9, twin := i.twin && !bitOf v 11, pwr := i.pwr && !bitOf v 12, fatal := i.fatal && !bitOf v 13 } }
    ∧ Becomes (.registerWrite 0x104 v) s { p with glob :=
        { p.glob with accessErr := p.glob.accessErr && !bitOf v 1, tbSlip := p.glob.tbSlip && !bitOf v 2, tbLost := p.glob.tbLost && !bitOf v 3 } }
    ∧ Becomes (.registerWrite 0xC000 v) s { p with ssu :=
        { p.ssu with ledgerErr := p.ssu.ledgerErr && !bitOf v 0, lodgeTmo := p.ssu.lodgeTmo && !bitOf v 1, misfit := p.ssu.misfit && !bitOf v 2 } }
    ∧ Becomes (.registerWrite 0x1004 v) s { p with larder :=
        { p.larder with partReject := p.larder.partReject && !bitOf v 0, ueSeen := p.larder.ueSeen && !bitOf v 1 } }
    ∧ (∀ hi : Bool, Acts (.registerWrite (if hi then 0x214 else 0x210) v) s fun t =>
        (∀ n < 64, bitOf t.irq.dpErr n = (bitOf i.dpErr n && !(decide (n / 32 = (if hi then 1 else 0)) && bitOf v (n % 32))))
          ∧ t = { p with irq := { i with dpErr := t.irq.dpErr }, glob := t.glob } ∧ p.Stamped t)
    ∧ Acts (.registerWrite 0x228 v) s (fun t =>
        (∀ n < 9, bitOf t.irq.seqHalt n = (bitOf i.seqHalt n && !bitOf v n) ∧ bitOf t.irq.seqFault n = (bitOf i.seqFault n && !bitOf v (16 + n)))
          ∧ t = { p with irq := { i with seqHalt := t.irq.seqHalt, seqFault := t.irq.seqFault }, glob := t.glob } ∧ p.Stamped t)
    ∧ (∀ hi : Bool, Acts (.registerWrite (if hi then 0x21C else 0x218) v) s fun t =>
        (∀ n < 64, bitOf t.irq.dpRej n = (bitOf i.dpRej n && !(decide (n / 32 = (if hi then 1 else 0)) && bitOf v (n % 32))))
          ∧ t = { p with irq := { i with dpRej := t.irq.dpRej }, glob := t.glob } ∧ p.Stamped t)
    ∧ (∀ hi : Bool, Acts (.registerWrite (if hi then 0x224 else 0x220) v) s fun t =>
        (∀ n < 64, bitOf t.irq.dpFence n = (bitOf i.dpFence n && !(decide (n / 32 = (if hi then 1 else 0)) && bitOf v (n % 32))))
          ∧ t = { p with irq := { i with dpFence := t.irq.dpFence }, glob := t.glob } ∧ p.Stamped t)
    ∧ Acts (.registerWrite 0x22C v) s (fun t =>
        (∀ n < 16, bitOf t.irq.cr n = (bitOf i.cr n && !bitOf v n)) ∧ t = { p with irq := { i with cr := t.irq.cr }, glob := t.glob } ∧ p.Stamped t)
    ∧ Acts (.registerWrite 0x230 v) s fun t =>
        (∀ n < 8, bitOf t.irq.ghDown n = (bitOf i.ghDown n && !bitOf v n)) ∧ t = { p with irq := { i with ghDown := t.irq.ghDown }, glob := t.glob } ∧ p.Stamped t

/-- R10, R333: a write of a read-only register changes nothing and is no error; while start-up step 2 has not been reached, no write of the
window does anything.
R8, R9, R337: an access that is not of 32 bits or not aligned is refused with cause 0, a write at an offset that holds no register with
cause 1; a read of either answers 0, the unmapped one without an error. What the shut window and an unmapped read leave is log entry 35's
reading. -/
def Obligations.RefusedAndIgnored : Prop :=
  (∀ (off : BitVec 20) (v : W32) (s : State), s.part.Calm →
    (s.part.shut = true → Becomes (.registerWrite off v) s s.part)
    ∧ (s.part.shut = false →
        off ∈ ([0x000, 0x004, 0x008, 0x00C, 0x010, 0x014, 0x018, 0x020, 0x024, 0x108, 0x110, 0x114, 0x118, 0x11C, 0x120, 0x20C, 0x1010, 0x1014,
          0x4004, 0x8004, 0x8008, 0xA004, 0xA02C, 0xB008, 0xC08C, 0xD004, 0xD008, 0xD07C, 0xD090, 0xD10C, 0xD204, 0xD218, 0xD300, 0xD304] : List (BitVec 20)) →
        Becomes (.registerWrite off v) s s.part))
  ∧ (∀ (off : BitVec 20) (wr : Bool) (s : State),
    (s.part.shut = false → Acts (.misalignedAccess off wr) s fun t =>
      s.part.Refused t 0 off.toNat wr ∧ t.glob.rdata = if wr then s.part.glob.rdata else 0)
    ∧ (s.part.regRead off.toNat = none →
      (s.part.shut = false → Acts (.unmappedAccess off true) s fun t => s.part.Refused t 1 off.toNat true ∧ t.glob.rdata = s.part.glob.rdata)
      ∧ Becomes (.unmappedAccess off false) s { s.part with glob := { s.part.glob with rdata := 0 } })
    ∧ (s.part.shut = true → Becomes (.misalignedAccess off true) s s.part
        ∧ Becomes (.misalignedAccess off false) s { s.part with glob := { s.part.glob with rdata := 0 } }))

/-- R11, R332, R340: a read of an RC register answers its count and clears it alone; a peak goes to the occupancy.
R12: a read of a low half answers it and latches the high half, which a later read of the high half returns whatever the quantity has
become; nothing else changes. WL_GLOBAL_TIME is one such quantity, the calibration entry in the staging registers (R348) another. -/
def Obligations.SideEffectsOfReads : Prop :=
  (∀ (s : State), s.part.shut = false →
    let p := s.part
    let ok (off : Nat) (v : W32) (x : Part) : Prop :=
      Becomes (.rcRead (BitVec.ofNat 20 off)) s { x with glob := { x.glob with rdata := v } }
    ok 0x1008 p.larder.ceCnt { p with larder := { p.larder with ceCnt := 0 } }
    ∧ ok 0x100C p.larder.ueCnt { p with larder := { p.larder with ueCnt := 0 } }
    ∧ ok 0x1018 p.larder.starveCnt { p with larder := { p.larder with starveCnt := 0 } }
    ∧ (∀ k < 16, ok (0x110C + 0x10 * k) (BitVec.ofNat 32 (p.larder.peak.getD k 0))
        { p with larder := { p.larder with peak := p.larder.peak.set k (p.larder.occ.getD k 0) } })
    ∧ (∀ n < 64, ok (0x400C + 0x100 * n) (p.dp n).rejectCnt (p.onDp n fun d => { d with rejectCnt := 0 })
        ∧ ok (0x4010 + 0x100 * n) (p.dp n).errCnt (p.onDp n fun d => { d with errCnt := 0 })
        ∧ ok (0x4014 + 0x100 * n) (p.dp n).abortCnt (p.onDp n fun d => { d with abortCnt := 0 })
        ∧ ok (0x4018 + 0x100 * n) (p.dp n).tileCnt (p.onDp n fun d => { d with tileCnt := 0 }))
    ∧ (∀ w < 8, ok (0x8020 + 0x400 * w) (p.seq w).instrCnt (p.onSeq w fun x => { x with instrCnt := 0 })
        ∧ ok (0x8024 + 0x400 * w) (p.seq w).wstoreErr (p.onSeq w fun x => { x with wstoreErr := 0 })
        ∧ ok (0x8044 + 0x400 * w) (p.ws w).replayCnt (p.onWs w fun y => { y with replayCnt := 0 })
        ∧ ok (0x8048 + 0x400 * w) (p.ws w).replayDiscard (p.onWs w fun y => { y with replayDiscard := 0 })
        ∧ ok (0x804C + 0x400 * w) (p.ws w).tetherBad (p.onWs w fun y => { y with tetherBad := 0 })
        ∧ ok (0x8050 + 0x400 * w) (p.ws w).tetherLate (p.onWs w fun y => { y with tetherLate := 0 }))
    ∧ ok 0xA420 (p.seq 8).instrCnt (p.onSeq 8 fun x => { x with instrCnt := 0 })
    ∧ ok 0xA424 (p.seq 8).wstoreErr (p.onSeq 8 fun x => { x with wstoreErr := 0 })
    ∧ ok 0xA02C p.gh.retryCnt { p with gh := { p.gh with retryCnt := 0 } }
    ∧ ok 0xA030 p.gh.badFlitCnt { p with gh := { p.gh with badFlitCnt := 0 } }
    ∧ ok 0xA034 p.gh.quarCnt { p with gh := { p.gh with quarCnt := 0 } }
    ∧ ok 0xA038 p.gh.holdCnt { p with gh := { p.gh with holdCnt := 0 } }
    ∧ ok 0xA03C p.gh.nackRxCnt { p with gh := { p.gh with nackRxCnt := 0 } }
    ∧ ok 0xA040 p.gh.ackLateCnt { p with gh := { p.gh with ackLateCnt := 0 } }
    ∧ ok 0xA044 p.gh.msgDropCnt { p with gh := { p.gh with msgDropCnt := 0 } }
    ∧ ok 0xB00C p.courier.lateCnt { p with courier := { p.courier with lateCnt := 0 } }
    ∧ ok 0xB010 p.courier.epochDropCnt { p with courier := { p.courier with epochDropCnt := 0 } }
    ∧ ok 0xC008 p.ssu.ledgerErrCnt { p with ssu := { p.ssu with ledgerErrCnt := 0 } }
    ∧ ok 0xC00C p.ssu.calMiss { p with ssu := { p.ssu with calMiss := 0 } }
    ∧ ok 0xC010 p.ssu.wideRows { p with ssu := { p.ssu with wideRows := 0 } }
    ∧ ok 0xC014 p.ssu.lodgeTmoCnt { p with ssu := { p.ssu with lodgeTmoCnt := 0 } }
    ∧ ok 0xC018 p.ssu.lodgeLate { p with ssu := { p.ssu with lodgeLate := 0 } }
    ∧ ok 0xC01C p.ssu.misfitCnt { p with ssu := { p.ssu with misfitCnt := 0 } }
    ∧ ok 0xD084 (BitVec.ofNat 32 (p.mb.qlostE.toNat + p.mb.qlostC.toNat * 2 ^ 16)) { p with mb := { p.mb with qlostE := 0, qlostC := 0 } }
    ∧ ok 0xD088 p.mb.noteLost { p with mb := { p.mb with noteLost := 0 } }
    ∧ ok 0xD114 p.gb.stageLost { p with gb := { p.gb with stageLost := 0 } }
    ∧ ok 0xD11C p.gb.hwqLost { p with gb := { p.gb with hwqLost := 0 } }
    ∧ ok 0xD21C p.twin.resyncCnt { p with twin := { p.twin with resyncCnt := 0 } }
    ∧ ok 0xD334 p.pwr.wakeCnt { p with pwr := { p.pwr with wakeCnt := 0 } })
  ∧ (∀ (s : State), s.part.shut = false →
    (∀ (off : BitVec 20) (wr : Bool) (x : W64), off.toNat % 4 = 0 → s.part.pairAt off.toNat = some (wr, x) →
        tabFind s.part.glob.lowHold off.toNat = none →
      Acts (.lowHalfRead off) s fun t =>
        t.glob.rdata.toNat = x.toNat % 2 ^ 32 ∧ t.regRead (off.toNat + 4) = some (BitVec.ofNat 32 (x.toNat / 2 ^ 32))
          ∧ t = { s.part with glob := { s.part.glob with latch := t.glob.latch, rdata := t.glob.rdata, acted := t.glob.acted, evSeq := t.glob.evSeq } })
    ∧ (∀ h, tabFind s.part.glob.latch 0x114 = some h →
        Becomes (.lowHalfRead 0x114) s { s.part with glob := { s.part.glob with rdata := h } })
    ∧ s.part.pairAt 0x110 = some (false, BitVec.ofNat 64 s.part.glob.time)
    ∧ (tabFind s.part.glob.lowHold 0xC074 = none →
        Becomes .calLoRead s { s.part with glob :=
          { s.part.glob with rdata := s.part.ssu.calLo, latch := tabInsert s.part.glob.latch 0xC078 s.part.ssu.calHi } }))

/-- R194, R216, R225, R346, R348: an index write loads the entry's staging registers from the pending copy, or the active one where
SHOW_ACTIVE is set; a data write sets the entry and moves the index up; a role entry goes to the twin (R18). WL_IRQ_SET sets direct
causes alone (R338). A write of CAL_HI leaves the SSU asleep (log entry 53).
R346: a commit writes the staged entry to the pending copy, asks for the clears staged with it, of a failed twin's stream of that number too
(log entry 32), and moves on to the next entry; an entry
with a reserved ROT_N or LODGE_FB is refused with cause 4. -/
def Obligations.IndexedTables : Prop :=
  (∀ (v : W32) (s : State), s.part.shut = false →
    let p := s.part
    let u := p.ssu
    Becomes (.irqSet v) s { p with irq := { p.irq with mailbox := p.irq.mailbox || bitOf v 9, twin := p.irq.twin || bitOf v 11, pwr := p.irq.pwr || bitOf v 12,
                                                       fatal := p.irq.fatal || bitOf v 13 } }
    ∧ Acts (.routeDataWrite v) s (fun t =>
        (∀ n, tabGet t.gh.routes n 0 = if n = p.gh.routeIdx.toNat then v &&& 0x1FF else tabGet p.gh.routes n 0)
          ∧ t = { p with gh := { p.gh with routes := t.gh.routes, routeIdx := p.gh.routeIdx + 1 }, glob := t.glob } ∧ p.Stamped t)
    ∧ Acts (.roleDataWrite v) s (fun t =>
        (∀ n, tabGet t.gh.roles n 0 = if n = p.gh.roleIdx.toNat then BitVec.ofNat 16 v.toNat else tabGet p.gh.roles n 0)
          ∧ (p.Mirrors → t.twin.txWords = ((p.twin.txSeq, .roleEntry p.gh.roleIdx (BitVec.ofNat 16 v.toNat)) :: p.twin.txWords).take 32768)
          ∧ (¬ p.Mirrors → t.twin = p.twin ∧ t.out = p.out)
          ∧ t = { p with gh := { p.gh with roles := t.gh.roles, roleIdx := p.gh.roleIdx + 1 }, twin := t.twin, out := t.out, glob := t.glob }
          ∧ p.TwinTold t ∧ p.Stamped t)
    ∧ Becomes (.streamIndexWrite v) s { p with ssu :=
        { u with strIdx := BitVec.ofNat 12 v.toNat, strData := tabGet (if u.showActive then u.streams else u.streamsP) (fld v 0 12) .reset,
                 strClear := false, strWideClr := false } }
    ∧ Becomes (.signIndexWrite v) s { p with ssu :=
        { u with signIdx := BitVec.ofNat 14 v.toNat, signData := tabGet (if u.showActive then u.signs else u.signsP) (fld v 0 14) 0 } }
    ∧ Acts (.calIndexWrite v) s (fun t =>
        t.ssu.calIdx = BitVec.ofNat 16 v.toNat
          ∧ t.ssu.calHi.toNat * 2 ^ 32 + t.ssu.calLo.toNat = (tabGet (if u.showActive then u.cal else u.calP) (fld v 0 16) 0).toNat
          ∧ t = { p with ssu := { u with calIdx := t.ssu.calIdx, calLo := t.ssu.calLo, calHi := t.ssu.calHi }, glob := t.glob } ∧ p.Stamped t)
    ∧ Acts (.signData3Write v) s (fun t =>
        (∀ n, tabGet t.ssu.signsP n 0
            = if n = u.signIdx.toNat then BitVec.ofNat 128 (fld u.signData 0 96 + v.toNat * 2 ^ 96) else tabGet u.signsP n 0)
          ∧ t.ssu.signIdx = u.signIdx + 1
          ∧ t.ssu.signData = tabGet (if u.showActive then u.signs else t.ssu.signsP) (u.signIdx + 1).toNat 0
          ∧ t = { p with ssu := { u with signsP := t.ssu.signsP, signIdx := t.ssu.signIdx, signData := t.ssu.signData }, glob := t.glob } ∧ p.Stamped t)
    ∧ Acts (.calHiWrite v) s (fun t =>
        (∀ n, tabGet t.ssu.calP n 0
            = if n = u.calIdx.toNat then Cal.mask (BitVec.ofNat 64 (u.calLo.toNat + v.toNat * 2 ^ 32)) else tabGet u.calP n 0)
          ∧ u.calIdx.toNat ∈ t.ssu.calChanged ∧ t.ssu.calIdx = u.calIdx + 1
          ∧ t.ssu.calHi.toNat * 2 ^ 32 + t.ssu.calLo.toNat = (tabGet (if u.showActive then u.cal else t.ssu.calP) (u.calIdx + 1).toNat 0).toNat
          ∧ t = { p with ssu := { u with calP := t.ssu.calP, calChanged := t.ssu.calChanged, calIdx := t.ssu.calIdx, calLo := t.ssu.calLo,
                                                   calHi := t.ssu.calHi }, glob := t.glob } ∧ p.Stamped t))
  ∧ (∀ (v : W32) (s : State), s.part.shut = false →
    let p := s.part
    let u := p.ssu
    let i := u.strIdx
    let bad : Prop := 6 ≤ u.strData.rotN.toNat ∨ u.strData.lodgeFb = 1#2
    (bad → Acts (.streamCommit v) s fun t => p.Refused t 4 0xC024 true)
    ∧ (¬ bad → Acts (.streamCommit v) s fun t =>
        (∀ n, tabGet t.ssu.streamsP n .reset = if n = i.toNat then u.strData else tabGet u.streamsP n .reset)
          ∧ t.env i.toNat = { p.env i.toNat with clearReq := (p.env i.toNat).clearReq || u.strClear, wideClr := (p.env i.toNat).wideClr || u.strWideClr }
          ∧ (∀ n, n ≠ i.toNat → t.env n = p.env n)
          ∧ t.ssu.twinEnvs = (u.twinEnvs.map fun e => if e.1 = i.toNat then
              (e.1, { e.2 with clearReq := e.2.clearReq || u.strClear, wideClr := e.2.wideClr || u.strWideClr }) else e)
          ∧ t.ssu.strIdx = i + 1 ∧ t.ssu.strData = tabGet (if u.showActive then u.streams else t.ssu.streamsP) (i + 1).toNat .reset
          ∧ t = { p with ssu := { u with streamsP := t.ssu.streamsP, envs := t.ssu.envs, twinEnvs := t.ssu.twinEnvs, strIdx := t.ssu.strIdx, strData := t.ssu.strData,
                                         strClear := false, strWideClr := false }, glob := t.glob } ∧ p.Stamped t))

/-- R306, R310: the heartbeat arms or refreshes its window in RUNNING, and once the window has ended changes COUNT alone; the Guestbook takes
BASE and SIZE, and its staged entries go to their places in the ring, each through Gatehouse NoC port 0. While K3 is down they stay staged
(R302; log entries 5 and 41). -/
def Obligations.HeartbeatAndGuestbook : Prop :=
  ∀ (s : State), s.part.shut = false →
    let p := s.part
    let live : Prop := p.mb.st = 3#4 ∧ p.mb.hbLatched = false ∧ p.mb.harbourLate = none ∧ (p.mb.hbArmed = true → p.now < p.mb.hbLast + 200000000)
    (∀ v, live → Becomes (.heartbeat v) s { p with mb := { p.mb with hbCount := v, hbArmed := true, hbLast := p.now } })
    ∧ (∀ v, ¬ live → Becomes (.heartbeat v) s { p with mb := { p.mb with hbCount := v } })
    ∧ (∀ (b : W64) (z : W32), b.toNat < 2 ^ 47 → z.toNat < 32 →
        let k3 : Prop := p.mb.st.toNat < 3 ∨ p.mb.runs 3 = true
        (b = 0 ∨ z = 0 ∨ p.gb.staged = [] ∨ ¬ k3 → Becomes (.guestbookConfigure b z) s { p with gb := { p.gb with base := b, size := z } })
        ∧ (b ≠ 0 → z ≠ 0 → k3 → Acts (.guestbookConfigure b z) s fun t =>
            (∀ e ∈ p.gb.staged.zipIdx, t.Logged (b + BitVec.ofNat 64 ((p.gb.wr + BitVec.ofNat 32 e.2).toNat % 2 ^ z.toNat * 32)) e.1)
              ∧ (∀ n, n ≠ 8 → t.noc n = p.noc n)
              ∧ t = { p with gb := { p.gb with base := b, size := z, staged := [], wr := p.gb.wr + BitVec.ofNat 32 p.gb.staged.length },
                             nocs := t.nocs, out := t.out, glob := t.glob } ∧ p.Stamped t))

/-- R8, R9, R11, R12, R194, R225, R306, R310, R338, R346, R348: in every state with the window open each command of the window completes: an access
that is not whole or not aligned answers 0 and sets ACCESS_ERR, one where no register stands answers 0 and a write of it sets ACCESS_ERR, a read
of a register answers what it holds, an index or a data write, a commit, and the writes of WL_IRQ_SET, the heartbeat and the Guestbook leave
their registers as written. -/
def Obligations.WindowCommandsComplete : Prop :=
  ∀ (off : BitVec 20) (r v : W32) (base : W64) (s : State), s.part.shut = false →
    let p := s.part
    (∃ t, exec (.misalignedAccess off false) s = .next t ∧ t.pending = s.pending ∧ t.part.glob.accessErr = true ∧ t.part.glob.rdata = 0)
    ∧ (∃ t, exec (.misalignedAccess off true) s = .next t ∧ t.pending = s.pending ∧ t.part.glob.accessErr = true ∧ t.part.glob.rdata = p.glob.rdata)
    ∧ (p.regRead off.toNat = none →
        (∃ t, exec (.unmappedAccess off false) s = .next t ∧ t.pending = s.pending ∧ t.part.glob.rdata = 0 ∧ t.part.glob.accessErr = p.glob.accessErr)
        ∧ ∃ t, exec (.unmappedAccess off true) s = .next t ∧ t.pending = s.pending ∧ t.part.glob.accessErr = true)
    ∧ (off.toNat % 4 = 0 → p.regRead off.toNat = some r →
        (∃ t, exec (.rcRead off) s = .next t ∧ t.pending = s.pending ∧ t.part.glob.rdata = r)
        ∧ ∃ t, exec (.lowHalfRead off) s = .next t ∧ t.pending = s.pending ∧ t.part.glob.rdata = r)
    ∧ (∀ l, p.regRead 0xC074 = some l → ∃ t, exec .calLoRead s = .next t ∧ t.pending = s.pending ∧ t.part.glob.rdata = l)
    ∧ (∃ t, exec (.irqSet v) s = .next t ∧ t.pending = s.pending ∧ t.part.irq.mailbox = (p.irq.mailbox || bitOf v 9) ∧ t.part.irq.twin = (p.irq.twin || bitOf v 11)
        ∧ t.part.irq.pwr = (p.irq.pwr || bitOf v 12) ∧ t.part.irq.fatal = (p.irq.fatal || bitOf v 13))
    ∧ (∃ t, exec (.routeDataWrite v) s = .next t ∧ t.pending = s.pending ∧ tabGet t.part.gh.routes p.gh.routeIdx.toNat 0 = v &&& 0x1FF
        ∧ t.part.gh.routeIdx = p.gh.routeIdx + 1)
    ∧ (∃ t, exec (.roleDataWrite v) s = .next t ∧ t.pending = s.pending ∧ tabGet t.part.gh.roles p.gh.roleIdx.toNat 0 = BitVec.ofNat 16 v.toNat
        ∧ t.part.gh.roleIdx = p.gh.roleIdx + 1)
    ∧ (∃ t, exec (.streamIndexWrite v) s = .next t ∧ t.pending = s.pending ∧ t.part.ssu.strIdx = BitVec.ofNat 12 v.toNat)
    ∧ (p.ssu.strData.rotN.toNat < 6 → p.ssu.strData.lodgeFb ≠ 1#2 → ∃ t, exec (.streamCommit v) s = .next t ∧ t.pending = s.pending
        ∧ tabGet t.part.ssu.streamsP p.ssu.strIdx.toNat .reset = p.ssu.strData ∧ t.part.ssu.strIdx = p.ssu.strIdx + 1)
    ∧ (∃ t, exec (.signIndexWrite v) s = .next t ∧ t.pending = s.pending ∧ t.part.ssu.signIdx = BitVec.ofNat 14 v.toNat)
    ∧ (∃ t, exec (.signData3Write v) s = .next t ∧ t.pending = s.pending ∧ t.part.ssu.signIdx = p.ssu.signIdx + 1
        ∧ fld (tabGet t.part.ssu.signsP p.ssu.signIdx.toNat 0) 96 32 = v.toNat)
    ∧ (∃ t, exec (.calIndexWrite v) s = .next t ∧ t.pending = s.pending ∧ t.part.ssu.calIdx = BitVec.ofNat 16 v.toNat)
    ∧ (∃ t, exec (.calHiWrite v) s = .next t ∧ t.pending = s.pending ∧ t.part.ssu.calIdx = p.ssu.calIdx + 1 ∧ p.ssu.calIdx.toNat ∈ t.part.ssu.calChanged)
    ∧ (∃ t, exec (.heartbeat v) s = .next t ∧ t.pending = s.pending ∧ t.part.mb.hbCount = v)
    ∧ (base.toNat < 2 ^ 47 → v.toNat < 32 → ∃ t, exec (.guestbookConfigure base v) s = .next t ∧ t.pending = s.pending ∧ t.part.gb.base = base ∧ t.part.gb.size = v)

/-! ## Drain ports -/

/-- R41, R45, R69, R141, R143, R146, R147, R152, R155, R156, R161, R313: a descriptor transfers only while a place is free, and its party holds
it until then. A fenced port keeps its slot. The code is the first of R155's table that applies, each written out here, and 0 where none
does (which checks stand for 0x04, 0x09 and 0x0A beside a lodge is read by log entries 26 and 27). A descriptor that fails is rejected with
it, its slot released, and its event, where it has one, says so; a descriptor of chain C0 that passes takes its place, with its copies. Its issue wakes the
SSU, and its acceptance the quad.
R119, R122, R129, R132: with a Ledger-scaled target an unpaired descriptor that passes joins the lodge it names, or has its mode by the stream's: wide
while WIDE is latched; live; a lodge of its own where it is eligible, else by LODGE_FB; forecast by the frozen Envelope, wide where that is empty;
calibrated by its entry, wide and counted where that fails. -/
def Obligations.DescriptorIssue : Prop :=
  ∀ (n : Fin 64) (d : BitVec 128) (src : Option (Fin 9)) (s : State), s.part.Calm → s.part.glob.fencedSelf = false →
    let s := s
    let x := s.part
    let p := x.dp n.val
    let ready : Prop := p.fenced = true ∨ p.exec = none ∨ (p.pend = none ∧ quadOf n.val ∈ x.pwr.awake)
    let ph := x.lodgePhase (Desc.lodge d)
    let e := x.stream (Desc.stream d)
    let c := p.ctx (Desc.ctx d)
    let ch := Desc.chain d
    let asks := Desc.asksLodge d e
    let joins := asks && (ph = .opened || ph = .opening)
    let late := asks && ph = .lateWindow && (x.lodge (Desc.lodge d)).stream = Desc.stream d
    let lodges := joins || late || asks && !(x.env (Desc.stream d)).wide && lodgeEligible d e
    let code := descCheck d e c (x.env (Desc.stream d)).wide joins ((x.lodge (Desc.lodge d)).joinOk d) lodges (x.tagOk d)
    let of (P : Fmt → Prop) : Prop := ∀ f, Fmt.ofCode (Desc.tfmt d) = some f → P f
    let biased : Prop := Desc.addBias d = true ∧ ch ∉ ([4, 5, 6, 7, 9, 10, 11] : List Nat)
    let resAdded : Prop := Desc.addRes d = true ∧ ch ∉ ([2, 4, 5, 6, 7, 8, 9, 10, 11] : List Nat)
    let target (f : Fmt) : Prop :=
      (ch = 0 → f = .fp32) ∧ (1 ≤ ch ∧ ch ≤ 3 → f.isRun = false) ∧ (ch = 6 → f = .int8 ∨ f = .uint8) ∧ (ch = 9 → f.isRun = true)
        ∧ (4 ≤ ch → ch ≠ 6 → ch ≠ 9 → f.isLedger = true)
    let destOk (f : Fmt) : Prop :=
      (ch = 0 → Desc.dest d = 0) ∧ (1 ≤ ch ∧ ch ≤ 3 → Desc.dest d = 0 ∨ (f ≠ .fp16 ∧ f.isMx = false)) ∧ (ch = 6 ∨ ch = 10 → Desc.dest d ≤ 1)
        ∧ (ch = 9 → Desc.dest d = 2) ∧ (ch = 11 → Desc.dest d = 1 ∨ Desc.dest d = 2)
    let bases : Prop := ∀ w ∈ [c.data, c.ledger, c.bias, c.res, c.smooth, c.stat], w.toNat % 64 = 0
    let bad (i : Nat) : Prop :=
      i = 1 ∧ (Desc.reserved d ≠ 0 ∨ 12 ≤ ch ∨ Desc.ctx d = 3 ∨ Desc.dest d = 3 ∨ biased ∨ resAdded)
      ∨ i = 2 ∧ (Fmt.ofCode (Desc.tfmt d) = none ∨ of (fun f => ¬ target f) ∨ Desc.stagewise d = true ∧ ch ≤ 3)
      ∨ i = 3 ∧ (of fun f => ¬ destOk f)
      ∨ i = 4 ∧ (ch = 6 ∧ (e.map = false ∨ e.cls ≠ 0) ∨ ch ≠ 6 ∧ e.map = true ∨ ch = 5 ∧ e.smoothEn = false)
      ∨ i = 5 ∧ (of fun f => f.isMx = true ∧ ¬ (1 ≤ ch ∧ ch ≤ 3 ∧ Desc.dest d = 0))
      ∨ i = 6 ∧ (3 < Desc.streams d e)
      ∨ i = 7 ∧ (e.tiles ≤ Desc.tile d ∨ ¬ bases ∨ of fun f => f.width = 6 ∧ Desc.dest d = 0 ∧ bitOf c.cfg 0 = false)
      ∨ i = 8 ∧ (of fun f => f.isLedger = true ∧ ch ≠ 10 ∧ (x.env (Desc.stream d)).wide = false ∧ e.mode = 0#2 ∧ 1 < e.tiles)
      ∨ i = 9 ∧ (joins = true ∧ (x.lodge (Desc.lodge d)).joinOk d = false)
      ∨ i = 10 ∧ (Desc.rotates d e = true ∧ e.rotBlock = 256 ∧ (e.tiles % 2 = 1 ∨ lodges = false ∧ Desc.pair d = false))
      ∨ i = 11 ∧ (Desc.rotates d e = true ∧ e.signEn = true ∧ 16384 < e.signBase.toNat + e.tiles)
      ∨ i = 12 ∧ (x.tagOk d = false)
    let evented (st : W64) (t : Part) : Prop :=
      Desc.evtEn d = true → (x.seq (n.val / 8)).wait = .none → (x.seq (n.val / 8)).event (Desc.event d) = (0, 0) →
        (t.seq (n.val / 8)).event (Desc.event d) = (1, st)
    (∀ i, 1 ≤ i → i ≤ 12 → (code = i ↔ bad i ∧ ∀ k, k < i → ¬ bad k)) ∧ (code = 0 ↔ ∀ i, i ≤ 12 → ¬ bad i)
    ∧ (¬ ready → Becomes (.drainDescriptorIssue n d src) s (x.onDp n.val fun p => { p with offers := p.offers ++ [(src, d)] }))
    ∧ (p.fenced = true → Desc.evtEn d = false →
        Becomes (.drainDescriptorIssue n d src) s (x.onDp n.val fun p => { p with held := setBitAt p.held (Desc.slot d) }))
    ∧ (p.fenced = true → Acts (.drainDescriptorIssue n d src) s fun t =>
        t.dps = (x.onDp n.val fun p => { p with held := setBitAt p.held (Desc.slot d) }).dps ∧ evented (evStatus 1 4 (n.val * 256) 0) t)
    ∧ (ready → p.fenced = false → code ≠ 0 → (asks = true → ¬ x.LodgeOver (Desc.lodge d)) → Acts (.drainDescriptorIssue n d src) s fun t =>
        (t.dp n.val).reject = BitVec.ofNat 32 (code + ch * 2 ^ 8 + b2n src.isSome * 2 ^ 12 + Desc.stream d * 2 ^ 16) ∧ t.ctxs = x.ctxs ∧ t.gh = x.gh
          ∧ Emit.slotFree n.val (Desc.slot d) ∈ t.out ∧ evented (evStatus 1 5 (code + n.val * 256) 0) t)
    ∧ (ready → p.fenced = false → code ≠ 0 → Desc.evtEn d = false → (Desc.asksLodge d e = true → ¬ x.LodgeOver (Desc.lodge d)) →
        Acts (.drainDescriptorIssue n d src) s fun t =>
          t.dp n.val = { p with reject := BitVec.ofNat 32 (code + Desc.chain d * 2 ^ 8 + b2n src.isSome * 2 ^ 12 + Desc.stream d * 2 ^ 16),
                                rejectCnt := satAdd p.rejectCnt 1 }
            ∧ (∀ m, m ≠ n.val → t.dp m = x.dp m) ∧ t.irq = { x.irq with dpRej := setBitAt x.irq.dpRej n.val }
            ∧ t = { x.wake .ssu with dps := t.dps, irq := t.irq, out := .slotFree n.val (Desc.slot d) :: x.out, glob := t.glob } ∧ x.Stamped t)
    ∧ (ready → p.fenced = false → code = 0 → Desc.chain d = 0 → Desc.pair d = false →
        Acts (.drainDescriptorIssue n d src) s fun t =>
          (∃ j : DrainJob, j.desc = d ∧ j.src = src ∧ j.se = e ∧ j.ctx = p.ctx (Desc.ctx d) ∧ j.mode = .plain ∧ j.started = false ∧ j.row = 0
            ∧ t.dp n.val = (match p.exec with | none => { p with exec := some j } | some _ => { p with pend := some j }))
            ∧ (∀ m, m ≠ n.val → t.dp m = x.dp m)
            ∧ (∀ q, src = some q → t.seq q.val = { x.seq q.val with drains := (x.seq q.val).drains + 1 })
            ∧ (∀ q : Fin 9, src ≠ some q → t.seq q.val = x.seq q.val)
            ∧ t = { (x.wake .ssu).wake (quadOf n.val) with dps := t.dps, seqs := t.seqs, nextId := t.nextId, glob := t.glob } ∧ x.Stamped t)
    ∧ (∀ f, ready → p.fenced = false → code = 0 → Fmt.ofCode (Desc.tfmt d) = some f → f.isLedger = true → Desc.pair d = false →
        (asks = true → ¬ x.LodgeOver (Desc.lodge d)) →
        let v := x.env (Desc.stream d)
        let k := Desc.lodge d
        let cal := tabGet x.ssu.cal ((e.calBase.toNat + Desc.calidx d) % 65536) 0
        let usable : Prop := Cal.usable cal e = true ∧ Cal.fmt cal = Desc.tfmt d
        let m : Q := ⟨16 + e.headroom.toNat, 16⟩
        let fc : W16 × Byte := if e.map then asymScale f e.pow2 (some (Q.mul m (bfQ v.eLo))) (some (Q.mul m (bfQ v.eHi)))
          else (symScale f e.pow2 (some (Q.mul m (Q.maxQ (bfQ v.eHi) (Q.neg (bfQ v.eLo))))), 0)
        let mode := if ch = 10 then 1 else e.mode.toNat
        let need := Desc.rows d * ((e.tiles + 1) / 2)
        let placed (t : Part) (j : DrainJob) : Prop :=
          j.desc = d ∧ j.src = src ∧ j.se = e ∧ j.ctx = c ∧ j.started = false ∧ j.row = 0 ∧ (∀ i, i ≠ n.val → t.dp i = x.dp i)
            ∧ t.dp n.val = (match p.exec with | none => { p with exec := some j } | some _ => { p with pend := some j })
        let runs (md : WMode) (sc : W16 × Byte) (miss : Bool) : Prop := Acts (.drainDescriptorIssue n d src) s fun t =>
          (∃ j, placed t j ∧ j.mode = md ∧ j.scale = sc.1 ∧ j.zp = sc.2 ∧ j.lodge = none ∧ j.lodgeWait = false)
            ∧ t.ssu.calMiss = (if miss then satAdd x.ssu.calMiss 1 else x.ssu.calMiss) ∧ t.ssu.lodges = x.ssu.lodges
        let fore : Prop := (v.ring = [] → runs .wide (0x3F80, 0) false) ∧ (v.ring ≠ [] → runs .forecast fc false)
        let cali : Prop := (usable → runs .calibrated (Cal.scale cal, Cal.zp cal) false) ∧ (¬ usable → runs .wide (0x3F80, 0) true)
        (joins = true → Acts (.drainDescriptorIssue n d src) s fun t =>
            (∃ j, placed t j ∧ j.mode = .lodge ∧ j.lodge = some k ∧ (j.lodgeWait = true ↔ ph = .opening))
              ∧ (t.lodge k).segs = tabInsert (x.lodge k).segs (Desc.tile d) [] ∧ (t.lodge k).phase = (x.lodge k).phase ∧ ∀ i, i ≠ k → t.lodge i = x.lodge i)
        ∧ (joins = false → late = false →
            (v.wide = true → runs .wide (0x3F80, 0) false)
            ∧ (v.wide = false → mode = 0 ∨ mode = 1 ∧ e.tiles = 1 → runs .live (0x3F80, 0) false)
            ∧ (v.wide = false → mode = 2 → fore)
            ∧ (v.wide = false → mode = 3 → cali)
            ∧ (v.wide = false → mode = 1 → 1 < e.tiles →
                (need ≤ 4096 → Desc.dest d ≤ 1 → Acts (.drainDescriptorIssue n d src) s fun t =>
                    (∃ j, placed t j ∧ j.mode = .lodge ∧ j.lodge = some k ∧ j.lodgeWait = true)
                      ∧ (t.lodge k).phase = .opening ∧ (t.lodge k).owner = n.val ∧ (t.lodge k).stream = Desc.stream d ∧ (t.lodge k).rows = Desc.rows d
                      ∧ (t.lodge k).tiles = e.tiles ∧ x.Asked t n.val need ∧ ∀ i, i ≠ k → t.lodge i = x.lodge i)
                ∧ (4096 < need ∨ Desc.dest d = 2 →
                    (e.lodgeFb = 2 → fore) ∧ (e.lodgeFb = 3 → cali)
                    ∧ (e.lodgeFb ≠ 2 → e.lodgeFb ≠ 3 → Acts (.drainDescriptorIssue n d src) s fun t =>
                        (t.dp n.val).reject = BitVec.ofNat 32 (9 + ch * 2 ^ 8 + b2n src.isSome * 2 ^ 12 + Desc.stream d * 2 ^ 16)
                          ∧ (t.dp n.val).exec = p.exec ∧ (t.dp n.val).pend = p.pend ∧ Emit.slotFree n.val (Desc.slot d) ∈ t.out)))))

/-- R135, R146, R172, R349: a descriptor starts in its executing place once its mode is settled and its pair found; one that writes to die memory, a
deposit of a lodge and the partner of a pair start without a buffer; any other that goes to the Gatehouse or a Waystation asks the Larder for its
footprint, charged to the unit it goes to, under a forecast or calibrated scale for a retention copy as well; C9 of a rank of 4,096 or more asks for X48's.
An instance that has fenced itself starts none (R266). -/
def Obligations.DescriptorStarts : Prop :=
  ∀ (n : Fin 64) (j : DrainJob) (s : State), (s.part.dp n.val).exec = some j →
    let x := s.part
    let can : Prop := j.started = false ∧ j.lodgeWait = false ∧ (∀ t, j.pair ≠ .waiting t) ∧ (x.dp n.val).fenced = false ∧ x.glob.fencedSelf = false
    let dest := Desc.dest j.desc
    let consumer := if dest = 1 then 72 else 64 + n.val / 8
    (¬ can → Becomes (.drainStart n) s x)
    ∧ (can → dest = 0 → Becomes (.drainStart n) s (x.onDp n.val fun p => { p with exec := some { j with started := true } }))
    ∧ (can → dest ≠ 0 → j.mode = .lodge ∨ (match j.pair with | .partner _ => true | _ => false) = true →
        Becomes (.drainStart n) s (x.onDp n.val fun p => { p with exec := some { j with started := true } }))
    ∧ (can → dest ≠ 0 → j.mode ≠ .lodge → (∀ l, j.pair ≠ .partner l) →
        let two : Bool := decide (j.mode = .forecast ∨ j.mode = .calibrated)
        let width := if Desc.chain j.desc = 9 ∧ (tabFind x.ctxs (Desc.tag j.desc)).any (fun c => decide (4096 ≤ Tb.rank c.blk)) = true then 48 else j.fmt.width
        let request (id credits : Nat) : LReq :=
          { id := id, requester := n.val, consumer := consumer, part := x.larder.active.owners.getD consumer 0, starved := false, made := x.now, credits := credits }
        Acts (.drainStart n) s fun t =>
          t.dp n.val = { x.dp n.val with exec := some { j with started := true, outBuf := some x.nextId, keepBuf := if two then some (x.nextId + 1) else j.keepBuf } }
            ∧ (∀ m, m ≠ n.val → t.dp m = x.dp m)
            ∧ t.larder = { x.larder with queue := x.larder.queue ++ [request x.nextId (((Desc.rows j.desc * j.tilesOut) * (8 + 16 * width) + 1023) / 1024)]
                ++ (if two then [request (x.nextId + 1) ((Desc.rows j.desc * j.tilesOut * 256 + 1023) / 1024)] else []) }
            ∧ t = { x with dps := t.dps, larder := t.larder, pwr := t.pwr, nextId := x.nextId + (if two then 2 else 1), glob := t.glob } ∧ x.Stamped t)

/-- R42, R43, R98, R124, R125, R138, R144: an accumulator row of a C0 descriptor is written as FP32 at its row's address; a row of a deposit joins its
tile in the lodge, or finds the lodge's window ended and is given up; a row that is not read because its reads do not run changes nothing. An accumulator error counts at the port and poisons the
row.
R120, R127, R134, R135, R142, R144, R146, R148, R150, R151, R154: a row of any other chain runs its stages and is encoded: to die memory its elements are
written and its record, scales or statistic kept for the tile's block, which the last row writes; to the Gatehouse or a Waystation its unit joins the
buffer, with C11's wide row beside it and C9's unit of the running sum; a unit with a record feeds its stream's Envelope. A descriptor whose Tether
context has closed under it is rejected at its last row with code 0x0C (R155, R251). A row of a pair
waits for the other port's, and both become two units. Where credits are wanting here, so that the port's queue shows the writes.
R98, R110, R115: stages 1 to 4, element by element. R76, R78, R83, R85, R99 to R103: the record and the codes of a unit. Requests take the lowest
free tag (log entry 9). -/
def Obligations.RowArrives : Prop :=
  (∀ (n : Fin 64) (row : List W32) (ue : Bool) (j : DrainJob) (s : State), s.part.Calm → row.length = 128 → (s.part.dp n.val).exec = some j →
    let x := s.part
    let p := x.dp n.val
    let port := n.val / 8
    let t0 := Desc.tile j.desc
    let addr := j.outAddr t0 j.row 512
    let j' := { j with rowsIn := j.rowsIn + 1, row := j.row + 1 }
    let errs (t : Part) : Prop :=
      (t.dp n.val).errCnt = (if ue then satAdd p.errCnt 1 else p.errCnt)
        ∧ t.irq = (if ue then { x.irq with dpErr := setBitAt x.irq.dpErr n.val } else x.irq) ∧ (∀ m, m ≠ n.val → t.dp m = x.dp m)
    let gone : Prop := ∃ k, j.lodge = some k ∧ x.LodgeOver k
    (x.rowReady n.val j = false → ¬ gone → Becomes (.accRowArrive n row ue) s x)
    ∧ (∀ k, j.lodge = some k → x.LodgeOver k → (x.lodge k).job.isSome = true → Acts (.accRowArrive n row ue) s fun t =>
        (t.lodge k).phase = .lateWindow ∧ (t.lodge k).stream = (x.lodge k).stream ∧ ∀ a, (t.dp n.val).exec = some a → a.id ≠ j.id)
    ∧ (x.rowReady n.val j = true → Desc.chain j.desc = 0 → Desc.tfmt j.desc = 0 → Desc.dest j.desc = 0 → Desc.stagewise j.desc = false → Desc.addBias j.desc = false →
        Desc.addRes j.desc = false → j.mode = .plain → j.pair = .single → j.lodge = none → j.row + 1 < Desc.rows j.desc → addr % 65536 + 512 ≤ 65536 →
        addr % 64 = 0 → (x.noc port).waiting = [] → (x.noc port).openReqs = [] → (x.noc port).merging = false → 1 ≤ (x.noc port).reqCr → 1 ≤ (x.noc port).wrCr →
      Acts (.accRowArrive n row ue) s fun t =>
        let bytes := wideRow .fp32 ue (row.map ofFp32)
        (t.dp n.val).exec = some { j' with nocDue := j.nocDue + 1, poisoned := j.poisoned || ue } ∧ errs t
          ∧ t.out = .nocWrite port 0 addr bytes :: x.out
          ∧ t.noc port = { x.noc port with reqCr := (x.noc port).reqCr - 1, wrCr := (x.noc port).wrCr - 1,
                                           openReqs := [(0, (⟨true, addr, 512, bytes, .drainOut n.val j.id, []⟩, 0))] }
          ∧ (∀ m, m ≠ port → t.noc m = x.noc m)
          ∧ t = { x with dps := t.dps, nocs := t.nocs, irq := t.irq, out := t.out, glob := t.glob } ∧ x.Stamped t)
    ∧ (∀ k, x.rowReady n.val j = true → j.mode = .lodge → j.lodge = some k → ¬ x.LodgeOver k → j.row + 1 < Desc.rows j.desc →
      Acts (.accRowArrive n row ue) s fun t =>
        (t.dp n.val).exec = some { j' with poisoned := j.poisoned || ue } ∧ errs t
          ∧ tabGet (t.lodge k).segs t0 [] = tabGet (x.lodge k).segs t0 [] ++ [row]
          ∧ (∀ i, i ≠ t0 → tabFind (t.lodge k).segs i = tabFind (x.lodge k).segs i)
          ∧ t.lodge k = { x.lodge k with segs := (t.lodge k).segs, bad := if ue then (t0, j.row) :: (x.lodge k).bad else (x.lodge k).bad }
          ∧ (∀ m, m ≠ k → t.lodge m = x.lodge m)
          ∧ t = { x with dps := t.dps, irq := t.irq, ssu := { x.ssu with lodges := t.ssu.lodges }, glob := t.glob } ∧ x.Stamped t))
  ∧ (∀ (n : Fin 64) (row : List W32) (ue : Bool) (j : DrainJob) (s : State), s.part.Calm → row.length = 128 → (s.part.dp n.val).exec = some j →
    let x := s.part
    let p := x.dp n.val
    let port := n.val / 8
    let t0 := Desc.tile j.desc
    let d := j.desc
    let use : NocUse := .drainOut n.val j.id
    let bad : Bool := ue || (j.keys t0 j.row).any j.opndBad.contains
    let o := j.stages t0 j.row 128 (row.map ofFp32)
    let u := j.encode o o.vals bad
    let els := match u.unit with | some y => y.els | none => u.raw
    let wide : Fmt := if Desc.wfmtBf d then .bf16 else .fp32
    let wideOff := if bitOf j.ctx.cfg 0 then j.ctx.data.toNat + (Desc.rowblk d * j.se.tiles + t0) * (2048 * wide.width) + j.row * (o.wide1.length * wide.width / 8)
      else j.ctx.data.toNat + (Desc.rowblk d * 128 + j.row) * fld j.ctx.pitch 0 24 * 64 + t0 * (16 * wide.width)
    let reqs := (if Desc.chain d = 11 then writeReqs wideOff (wideRow wide bad o.wide1) use else [])
      ++ (if Desc.dest d = 0 then writeReqs (j.outAddr t0 j.row els.length) els use else [])
    let h : HalfOut := { j.half0 with
      clips := j.half0.clips + u.clips
      stats := if Desc.chain d = 7 then j.half0.stats ++ [u.stat] else j.half0.stats
      led := if Desc.dest d = 0 then j.half0.led ++ (u.unit.map fun y => y.led.word).toList else j.half0.led
      scales := if u.mx = [] then j.half0.scales else j.half0.scales ++ [u.mx]
      units := if Desc.dest d = 0 then j.half0.units else j.half0.units ++ u.unit.toList
      keep := if Desc.dest d = 0 then j.half0.keep else j.half0.keep ++ u.keep.toList }
    let fed : Part := if u.unit.isSome then x.feed (Desc.stream d) o.vals else x
    let runs : Prop := x.rowReady n.val j = true ∧ j.mode ≠ .lodge ∧ j.lodge = none
    let frame (t : Part) : Prop :=
      (∀ m, m ≠ port → t.noc m = x.noc m) ∧ (∀ m, t.env m = fed.env m) ∧ t.ssu.wideRows = (if u.wide then satAdd x.ssu.wideRows 1 else x.ssu.wideRows)
        ∧ t.ctxs = x.ctxs ∧ t.seqs = x.seqs ∧ t.groups = x.groups ∧ t.courier = x.courier
    (runs → j.pair = .single → Desc.chain d ≠ 9 → (x.noc port).reqCr = 0 → (Desc.dest d = 0 → els.length % 64 = 0) → (Desc.dest d ≠ 0 → u.unit.isSome = true) →
      (j.row + 1 < Desc.rows d → Acts (.accRowArrive n row ue) s fun t =>
        (t.dp n.val).exec = some { j with rowsIn := j.rowsIn + 1, row := j.row + 1, half0 := h, poisoned := j.poisoned || u.poison, nocDue := j.nocDue + reqs.length }
          ∧ (t.dp n.val).errCnt = (if ue then satAdd p.errCnt 1 else p.errCnt) ∧ (∀ m, m ≠ n.val → t.dp m = x.dp m)
          ∧ (t.noc port).waiting = (x.noc port).waiting ++ reqs ∧ t.gh = x.gh ∧ frame t)
      ∧ (j.row + 1 = Desc.rows d → Desc.dest d = 2 → j.ctxGone = true → p.pend = none → Acts (.accRowArrive n row ue) s fun t =>
          (t.dp n.val).reject = BitVec.ofNat 32 (12 + Desc.chain d * 2 ^ 8 + b2n j.src.isSome * 2 ^ 12 + Desc.stream d * 2 ^ 16)
            ∧ Emit.slotFree n.val (Desc.slot d) ∈ t.out ∧ (t.dp n.val).exec = none ∧ t.wss = x.wss ∧ t.ctxs = x.ctxs ∧ (∀ m, m ≠ n.val → t.dp m = x.dp m))
      ∧ (j.row + 1 = Desc.rows d → Desc.dest d = 0 → j.ctxGone = false → p.pend = none → Acts (.accRowArrive n row ue) s fun t =>
          let plane (base : W64) (size : Nat) : Nat := base.toNat + (Desc.rowblk d * j.se.tiles + t0) * size
          let leds := h.led ++ List.replicate (128 - h.led.length) (fillRec j.se.epoch).word
          let blocks := (if h.led = [] then [] else writeReqs (plane j.ctx.ledger 1024) ((leds.map fun (r : W64) => toBytes 8 r.toNat).flatten) use)
            ++ (if h.scales = [] then [] else writeReqs (plane j.ctx.ledger 512) ((h.scales ++ List.replicate (128 - h.scales.length) [0, 0, 0, 0]).flatten) use)
            ++ (if h.stats = [] then [] else writeReqs (plane j.ctx.stat 512)
                  (((h.stats ++ List.replicate (128 - h.stats.length) 0).map fun (r : W32) => toBytes 4 r.toNat).flatten) use)
          (t.noc port).waiting = (x.noc port).waiting ++ reqs ++ blocks ∧ Emit.slotFree n.val (Desc.slot d) ∈ t.out ∧ (t.dp n.val).exec = none
            ∧ (∃ a ∈ (t.dp n.val).tail, a.id = j.id ∧ a.nocDue = j.nocDue + (reqs ++ blocks).length ∧ a.poisoned = (j.poisoned || u.poison))
            ∧ (∀ m, m ≠ n.val → t.dp m = x.dp m) ∧ frame t))
    ∧ (∀ c, runs → j.pair = .single → Desc.chain d = 9 → Desc.dest d = 2 → j.row + 1 < Desc.rows d → tabFind x.ctxs (Desc.tag d % 64) = some c →
        (Fmt.ofCode (Desc.tfmt d)).any Fmt.isRun = true → Acts (.accRowArrive n row ue) s fun t =>
        let x48 := decide (Desc.tfmt d = 0x1D ∨ 4096 ≤ Tb.rank c.blk)
        ∃ y, y = x.c9Unit j t0 j.row o o.vals bad ∧ y.led.count = 1 ∧ y.led.epoch = j.se.epoch ∧ y.led.exact = x48 ∧ y.led.rotated = Desc.rotates d j.se
          ∧ (bad = true → y.led.poison = true)
          ∧ (t.dp n.val).exec = some { j with rowsIn := j.rowsIn + 1, row := j.row + 1, half0 := { j.half0 with units := j.half0.units ++ [y] },
                                              poisoned := j.poisoned || y.led.poison }
          ∧ (∀ m, m ≠ n.val → t.dp m = x.dp m) ∧ (∀ m, t.noc m = x.noc m) ∧ t.ctxs = x.ctxs ∧ t.gh = x.gh)
    ∧ (∀ q, runs → j.pair = .lead q ∨ j.pair = .partner q → (∀ b, (x.dp q).exec = some b → b.held = []) → Acts (.accRowArrive n row ue) s fun t =>
        (t.dp n.val).exec = some { j with held := j.held ++ [(row, ue)], rowsIn := j.rowsIn + 1 }
          ∧ (j.rowsIn + 1 = Desc.rows d → t.out = .slotFree n.val (Desc.slot d) :: x.out) ∧ (j.rowsIn + 1 ≠ Desc.rows d → t.out = x.out)
          ∧ (∀ m, m ≠ n.val → t.dp m = x.dp m) ∧ t.nocs = x.nocs ∧ t.ssu = x.ssu)
    ∧ (∀ q b row2 ue2 rest, runs → j.pair = .lead q → q ≠ n.val → j.held = [] → (x.dp q).exec = some b → b.pair = .partner n.val → j.mate = some b.id → b.held = (row2, ue2) :: rest →
        Desc.dest d ≠ 0 → Desc.chain d ≠ 9 → Desc.chain d ≠ 11 → j.row + 1 < Desc.rows d → b.row + 1 ≠ Desc.rows b.desc → Acts (.accRowArrive n row ue) s fun t =>
        let bad2 : Bool := (ue || ue2) || (j.keys t0 j.row).any j.opndBad.contains
        let o2 := j.stages t0 j.row 256 ((row ++ row2).map ofFp32)
        let u0 := j.encode (o2.part 0 128) (o2.part 0 128).vals bad2
        let u1 := j.encode (o2.part 128 128) (o2.part 128 128).vals bad2
        (∃ a, (t.dp n.val).exec = some a ∧ a.id = j.id ∧ a.row = j.row + 1 ∧ a.held = [] ∧ a.half0.units = j.half0.units ++ u0.unit.toList
            ∧ a.half1.units = j.half1.units ++ u1.unit.toList ∧ a.half0.keep = j.half0.keep ++ u0.keep.toList ∧ a.half1.keep = j.half1.keep ++ u1.keep.toList
            ∧ a.half0.clips = j.half0.clips + u0.clips ∧ a.half1.clips = j.half1.clips + u1.clips)
          ∧ (t.dp q).exec = some { b with held := rest, row := b.row + 1 } ∧ (∀ m, m ≠ n.val → m ≠ q → t.dp m = x.dp m) ∧ t.nocs = x.nocs ∧ t.ctxs = x.ctxs))
  ∧ (∀ (cfg : FwdCfg) (c0 : Nat) (a : List Val) (adds : List (List Val)) (divs : List Val) (i : Nat) (v : Val), cfg.ifmt = none → a[i]? = some v →
    let o := forwardStages cfg c0 a adds divs
    let d := divs.getD i Val.zero
    let v1 := if cfg.stage1 then Val.sum (v :: adds.map fun b => b.getD i Val.zero) else v
    let v2 := if cfg.smooth then (match d with | .fin q _ => if Q.le (Q.pow2 (-126)) q then Val.scale v1 (Q.div ⟨1, 1⟩ q) else .nan false | _ => .nan false) else v1
    o.wide1[i]? = some v1 ∧ (cfg.rotN = 0 → o.vals[i]? = some v2 ∧ o.bads[i]? = some (cfg.smooth && !divisorValid d)))
  ∧ (∀ (n : Nat) (ex iex : Int) (blk : List Val) (i : Nat),
    (n, ex, iex) ∈ ([(16, -2, -2), (32, -2, -3), (64, -3, -3), (128, -3, -4), (256, -4, -4)] : List (Nat × Int × Int)) → blk.length = n → i < n →
    let odd (k : Nat) : Bool := ((List.range 8).filter fun b => Nat.testBit (i &&& k) b).length % 2 == 1
    let sum := Val.sum (blk.zipIdx.map fun v => if odd v.2 then Val.neg v.1 else v.1)
    (blk.all Val.isFin = true → (rotateUnit false n blk).1[i]? = some (Val.scale sum (Q.pow2 ex)) ∧ (rotateUnit true n blk).1[i]? = some (Val.scale sum (Q.pow2 iex)))
    ∧ (blk.all Val.isFin = false → (rotateUnit false n blk).1[i]? = some (.nan false) ∧ (rotateUnit true n blk).1[i]? = some (.nan false)
        ∧ (rotateUnit false n blk).2[i]? = some true))
  ∧ (∀ (j : DrainJob) (o : FwdOut) (vals : List Val) (bad : Bool) (f : Fmt), Fmt.ofCode (Desc.tfmt j.desc) = some f → f.isLedger = true →
    let u := j.encode o vals bad
    let sc := if j.mode = .forecast ∨ j.mode = .calibrated then (j.scale, j.zp)
      else if j.se.map then asymScale f j.se.pow2 (minOf vals) (maxOf vals) else (symScale f j.se.pow2 (amaxOf vals), 0)
    let es := vals.map (encodeElem f j.se.map sc.1 sc.2)
    let kept (r : Rec) : Prop :=
      r.count = 1 ∧ r.epoch = j.se.epoch ∧ r.absent = false ∧ r.exact = false ∧ r.misfit = false ∧ r.rotated = Desc.rotates j.desc j.se
        ∧ r.smoothed = chainSmooth (Desc.chain j.desc) j.se
    (j.mode ≠ .wide → ∃ y, u.unit = some y ∧ kept y.led ∧ y.led.wide = false ∧ y.led.scale = sc.1 ∧ y.led.zp = sc.2
        ∧ y.led.poison = (bad || o.poison || es.any Enc.poison) ∧ y.led.clipped = (o.clipped || es.any Enc.clip) ∧ u.poison = y.led.poison ∧ u.wide = false
        ∧ y.els = packCodes f.width (es.map Enc.code) ∧ u.clips = (es.filter Enc.clip).length)
    ∧ (j.mode = .wide → ∃ y, u.unit = some y ∧ kept y.led ∧ y.led.wide = true ∧ y.led.scale = 0x3F80 ∧ y.led.zp = 0 ∧ y.led.poison = (bad || o.poison)
        ∧ u.wide = true ∧ y.els = packCodes 16 (vals.map (encodeN bf16Fmt))))
  ∧ (∀ (f : Fmt) (ff : FloatFmt) (asym zn : Bool) (sc : W16) (zp : Byte) (q : Q), f.isLedger = true →
    let a := Q.div q (scaleQ sc)
    let top := 2 ^ (f.width - 1)
    (f.float? = some ff → let m := roundMag ff a
      encodeElem f asym sc zp (.fin q zn) = ⟨(if (Val.fin q zn).sign then top else 0) + min m ff.maxMag, decide (ff.maxMag < m), false⟩)
    ∧ (f.float? = none →
        let lo : Int := if asym then asymLo f else if f = .uint8 then 1 else if f = .int4 then -7 else -127
        let hi : Int := if asym then asymLo f + 255 else if f = .uint8 then 255 else if f = .int4 then 7 else 127
        let c := Q.rne a + effZ f zp
        encodeElem f asym sc zp (.fin q zn) = ⟨(BitVec.ofInt f.width (max lo (min c hi))).toNat, decide (c < lo ∨ hi < c), false⟩
          ∧ ∀ v : Val, v.isFin = false → encodeElem f asym sc zp v = ⟨(BitVec.ofInt f.width (effZ f zp)).toNat, false, true⟩)
    ∧ (f = .e4m3 → encodeElem f asym sc zp (.nan zn) = ⟨(if zn then 0x80 else 0) + 0x7F, false, false⟩
        ∧ encodeElem f asym sc zp (.inf zn) = ⟨(if zn then 0x80 else 0) + 0x7F, false, true⟩)
    ∧ (f = .e5m2 → encodeElem f asym sc zp (.inf zn) = ⟨(if zn then 0x80 else 0) + 0x7C, false, false⟩)
    ∧ (f = .e3m2 ∨ f = .e2m3 ∨ f = .e2m1 → ∀ v : Val, v.isFin = false → encodeElem f asym sc zp v = ⟨0, false, true⟩))
  ∧ (∀ (f : Fmt) (pow2 : Bool) (a : Option Q) (d : Nat),
    symScale f pow2 none = 0x3F80 ∧ symScale f pow2 (some ⟨0, d⟩) = 0x3F80 ∧ scaleValid (symScale f pow2 a) = true)

/-- R124, R125, R158, R284: a close reads its operands in two passes and then ends, once its buffers are in: the lodge buffer goes back, the close is over,
a close after a timeout counts, and so does each segment of the lodge's rows that reads back with an error, corrected or not. Before that nothing happens. The number itself was free, or in its late window, from the close's begin.
That the number is another opener's to take while a close runs is log entry 27's choice, and that the end waits while the quad sleeps log entry
41's. -/
def Obligations.LodgeCloses : Prop :=
  ∀ (i : Byte) (bad : List (Nat × LarderErr)) (s : State), s.part.Calm →
    let x := s.part
    let k := i.toNat
    (x.closeOf k = none → Becomes (.lodgeCloseDone i bad) s x)
    ∧ (∀ l j, x.closeOf k = some (l, j) →
      let ready : Prop := l.pass = 2 ∧ j.opndDue = [] ∧ x.grantedOpt j.outBuf = true ∧ quadOf l.owner ∈ x.pwr.awake ∧ x.glob.fencedSelf = false
      let ues := (bad.filter fun b => decide (b.1 < l.rows) && b.2.isUe).length
      let ces := (bad.filter fun b => decide (b.1 < l.rows) && decide (b.2 = .corrected)).length
      (¬ ready → Becomes (.lodgeCloseDone i bad) s x)
      ∧ (ready → Acts (.lodgeCloseDone i bad) s fun t =>
          t.ssu.closing = (x.ssu.closing.filter fun c => decide ((c.2.job.map DrainJob.id) ≠ some j.id))
            ∧ (l.timedOut = false → t.ssu.lodgeTmoCnt = x.ssu.lodgeTmoCnt)
            ∧ (l.timedOut = true → t.ssu.lodgeTmo = true ∧ t.ssu.lodgeTmoCnt = satAdd x.ssu.lodgeTmoCnt 1)
            ∧ t.larder.ceCnt = satAdd x.larder.ceCnt ces ∧ t.larder.ueCnt = satAdd x.larder.ueCnt ues ∧ t.larder.ueSeen = (x.larder.ueSeen || decide (0 < ues))
            ∧ (∀ r, l.req = some r → tabFind t.larder.bufs r = none) ∧ (∀ m, t.lodge m = x.lodge m)
            ∧ t.ctxs = x.ctxs ∧ t.courier = x.courier ∧ t.groups = x.groups ∧ t.sensed = x.sensed))

/-- R122, R125, R137: a lodge whose window has ended with tiles missing closes with what it has; a late window that has ended frees the number;
a request that the Larder does not grant in time is withdrawn. A row that comes before its window's end changes nothing.
R154, R156: a paired descriptor that waits for its counterpart 1 µs is rejected with code 0x0A, its slot released. -/
def Obligations.LodgeAndPairWindows : Prop :=
  (∀ (i : Byte) (s : State), s.part.Calm →
    let x := s.part
    let k := i.toNat
    let l := x.lodge k
    let ended : Prop := l.since + x.ssu.tmo.toNat ≤ x.now
    let others (t : Part) : Prop := ∀ m, m ≠ k → t.lodge m = x.lodge m
    (l.phase = .opened → ended → l.job.isSome = true → Acts (.lodgeTimeout i) s fun t =>
        t.lodge k = { Lodge.reset with phase := .lateWindow, stream := l.stream, since := l.since + x.ssu.tmo.toNat, timedOut := true } ∧ others t
          ∧ t.ssu.closing.length = x.ssu.closing.length + 1
          ∧ ∃ y, (k, y) ∈ t.ssu.closing ∧ y.timedOut = true ∧ y.since = l.since + x.ssu.tmo.toNat ∧ y.req = l.req ∧ y.segs = l.segs ∧ y.done = l.done)
    ∧ (l.phase ≠ .opened ∨ ¬ ended → Becomes (.lodgeTimeout i) s x)
    ∧ (l.phase = .lateWindow → ended → Acts (.lodgeLateWindowEnd i) s fun t =>
        t.lodge k = .reset ∧ others t ∧ t = { x with ssu := { x.ssu with lodges := t.ssu.lodges }, glob := t.glob } ∧ x.Stamped t)
    ∧ (l.phase ≠ .lateWindow ∨ ¬ ended → Becomes (.lodgeLateWindowEnd i) s x)
    ∧ (∀ r, l.phase = .opening → l.req = some r → tabFind x.larder.bufs r = none → Acts (.lodgeGrantTimeout i) s fun t =>
        t.lodge k = .reset ∧ others t ∧ (∀ q ∈ t.larder.queue, q.id ≠ r) ∧ t.larder.bufs = x.larder.bufs)
    ∧ (l.phase ≠ .opening → Becomes (.lodgeGrantTimeout i) s x))
  ∧ (∀ (n : Fin 64) (j : DrainJob) (t0 : Nat) (s : State), s.part.Calm → (s.part.dp n.val).exec = some j → (s.part.dp n.val).pend = none →
    j.pair = .waiting t0 →
    let x := s.part
    (x.now < t0 + 1000 → Becomes (.pairTimeout n) s x)
    ∧ (t0 + 1000 ≤ x.now → j.src = none → Desc.evtEn j.desc = false →
        Acts (.pairTimeout n) s fun t =>
          t.dp n.val = { x.dp n.val with exec := none, rejectCnt := satAdd (x.dp n.val).rejectCnt 1,
                                         reject := BitVec.ofNat 32 (10 + Desc.chain j.desc * 2 ^ 8 + Desc.stream j.desc * 2 ^ 16) }
            ∧ (∀ m, m ≠ n.val → t.dp m = x.dp m)
            ∧ t = { x with dps := t.dps, irq := { x.irq with dpRej := setBitAt x.irq.dpRej n.val }, out := .slotFree n.val (Desc.slot j.desc) :: x.out, glob := t.glob }
            ∧ x.Stamped t))

/-- R44, R46, R49, R138, R161, R162, R163: a rise of CORE_FAULT and a software fence empty the port, keep the slots of its descriptors whose last row has not
come, cut off its tiles and raise its interrupt, no window of its descriptors having ended before; a fall changes the level alone. Unfencing gives the slots back, lowest first, and is refused while CORE_FAULT is
high. -/
def Obligations.Fencing : Prop :=
  ∀ (n : Fin 64) (s : State), s.part.Calm → s.part.shut = false →
    let x := s.part
    let p := x.dp n.val
    let jobs := p.exec.toList ++ p.pend.toList
    let fencedNow (bit fault : Bool) (t : Part) : Prop :=
      t.dp n.val = { p with fenceBit := bit, coreFault := fault, fenced := true, exec := none, pend := none, ops := [],
                            abortCnt := satAdd p.abortCnt p.ops.length,
                            held := (jobs.filter fun j => decide (j.rowsIn < j.rows)).foldl (fun h j => setBitAt h (Desc.slot j.desc)) p.held }
        ∧ bitOf t.irq.dpFence n.val = true ∧ t.courier = x.courier ∧ t.groups = x.groups
    let open_ : Prop := ∀ j ∈ jobs, (∀ k, j.lodge = some k → ¬ x.LodgeOver k) ∧ ∀ t0, j.pair = .waiting t0 → x.now < t0 + 1000
    (p.coreFault = false → p.fenced = false → open_ → Acts (.coreFault n true) s (fencedNow p.fenceBit true))
    ∧ (p.coreFault = true ∨ p.fenced = true → Becomes (.coreFault n true) s (x.onDp n.val fun p => { p with coreFault := true }))
    ∧ Becomes (.coreFault n false) s (x.onDp n.val fun p => { p with coreFault := false })
    ∧ (p.fenced = false → open_ → Acts (.softwareFence n) s (fencedNow true p.coreFault))
    ∧ (p.fenced = true → Becomes (.softwareFence n) s (x.onDp n.val fun p => { p with fenceBit := true }))
    ∧ (p.coreFault = true → Acts (.unfence n) s fun t => x.Refused t 2 (0x4000 + n.val * 0x100) true)
    ∧ (p.coreFault = false → Becomes (.unfence n) s
        { x.onDp n.val fun p => { p with held := 0, fenced := false, fenceBit := false } with
          out := (((List.range 4).filter fun i => bitOf p.held i).map fun i => Emit.slotFree n.val i).reverse ++ x.out })

/-- R47, R49, R266, R284: the next row of the tile in delivery goes to the core with the tile's tag and index; after the last the tile and its buffer are
done with; an uncorrectable Larder error cuts it off and counts. A sleeping quad passes nothing, nor does a port of an instance that has
fenced itself. Each of the three completes: the row goes out, or the tile is cut off. -/
def Obligations.OperandRows : Prop :=
  ∀ (n : Fin 64) (o : OpsTile) (rest : List OpsTile) (s : State), (s.part.dp n.val).ops = o :: rest →
    let x := s.part
    let row := Emit.opsRow n.val o.tag o.tidx o.next (o.rows.getD o.next [])
    (quadOf n.val ∉ x.pwr.awake ∨ x.glob.fencedSelf = true → ∀ e, Becomes (.opsRowTransfer n e) s x)
    ∧ (quadOf n.val ∈ x.pwr.awake → x.glob.fencedSelf = false →
      (o.next + 1 < o.rows.length → Acts (.opsRowTransfer n .clean) s fun t =>
        t = { x.onDp n.val fun p => { p with ops := { o with next := o.next + 1 } :: rest } with out := row :: x.out, pwr := t.pwr, glob := t.glob } ∧ x.Stamped t)
      ∧ (o.rows.length ≤ o.next + 1 → Acts (.opsRowTransfer n .clean) s fun t =>
          t.dp n.val = { x.dp n.val with ops := rest } ∧ (∀ m, m ≠ n.val → t.dp m = x.dp m) ∧ row ∈ t.out
            ∧ (∀ b, o.buf = some b → tabFind t.larder.bufs b = none) ∧ (o.buf = none → t.larder = x.larder) ∧ t.seqs = x.seqs ∧ t.ctxs = x.ctxs ∧ t.gh = x.gh)
      ∧ ∀ line, Acts (.opsRowTransfer n (.uncorrectable line)) s fun t =>
          t.dp n.val = { x.dp n.val with ops := rest, abortCnt := satAdd (x.dp n.val).abortCnt 1 } ∧ Emit.opsAbort n.val ∈ t.out
            ∧ t.larder.ueCnt = satAdd x.larder.ueCnt 1 ∧ t.larder.ueSeen = true
            ∧ t.larder.ueAddr = BitVec.ofNat 32 (line.toNat + line.toNat % 64 * 2 ^ 20) ∧ (∀ b, o.buf = some b → tabFind t.larder.bufs b = none))

/-! ## NoC and Larder -/

/-- R50, R52, R235: a beat of a tag that is not an open read is nothing; a beat short of its piece joins the read; the last beat of a FETCH MEM
frees the tag, writes GA and lets the sequencer go on, or faults it with NOC where a beat had an error, which the port counts. The line that a
PUT WORD asked for goes out again with its eight bytes laid in.
R50, R52, R160, R254: a response frees its tag; a PUT WORD's counts it done, with an error in its sequencer's flag and counter; a drained
descriptor's last one completes it. A credit goes to its channel, and a waiting request that it lets go leaves at once. A request takes the lowest
free tag (log entry 9); the lines that a write of part of them reads first are log entry 10's reading. -/
def Obligations.NocTraffic : Prop :=
  (∀ (n : Fin 10) (tag : Byte) (data : List Byte) (err : BitVec 2) (s : State), s.part.Calm →
    let x := s.part
    let p := x.noc n.val
    let cnt := if err = 0 then p.errCnt else p.errCnt + 1
    let others (t : Part) : Prop := ∀ m, m ≠ n.val → t.noc m = x.noc m
    ((∀ r k, tabFind p.openReqs tag.toNat = some (r, k) → r.wr = true) → Becomes (.nocReadData n tag data err) s x)
    ∧ (∀ r k, tabFind p.openReqs tag.toNat = some (r, k) → r.wr = false → r.data.length + data.length < k →
      Acts (.nocReadData n tag data err) s fun t =>
        (∃ b, tabFind (t.noc n.val).openReqs tag.toNat = some ({ r with data := r.data ++ data, bad := b }, k) ∧ (err = 0 → b = r.bad))
          ∧ (∀ i, i ≠ tag.toNat → tabFind (t.noc n.val).openReqs i = tabFind p.openReqs i)
          ∧ t.noc n.val = { p with openReqs := (t.noc n.val).openReqs, errCnt := cnt } ∧ others t
          ∧ t = { x with nocs := t.nocs, glob := t.glob } ∧ x.Stamped t)
    ∧ (∀ (q : Fin 9) a d, tabFind p.openReqs tag.toNat = some (⟨false, a / 64 * 64, 64, [], .merge a d (.store q.val), []⟩, 64) → p.waiting = [] →
        p.openReqs = [(tag.toNat, (⟨false, a / 64 * 64, 64, [], .merge a d (.store q.val), []⟩, 64))] → data.length = 64 → d.length = 8 → a % 8 = 0 → err = 0 →
        1 ≤ p.reqCr → 1 ≤ p.wrCr →
      Acts (.nocReadData n tag data err) s fun t =>
        let line := data.take (a % 64) ++ d ++ data.drop (a % 64 + 8)
        t.noc n.val = { p with merging := false, reqCr := p.reqCr - 1, wrCr := p.wrCr - 1,
                               openReqs := [(0, (⟨true, a / 64 * 64, 64, line, .store q.val, []⟩, 0))] }
          ∧ Emit.nocWrite n.val 0 (a / 64 * 64) line ∈ t.out ∧ others t ∧ t.seqs = x.seqs)
    ∧ (∀ (q : Fin 9) off skip ga, tabFind p.openReqs tag.toNat = some (⟨false, off, 64, [], .fetch q.val skip, []⟩, 64) → p.waiting = [] →
        data.length = 64 → skip ≤ 56 → (x.seq q.val).wait = .fetch ga →
      Acts (.nocReadData n tag data err) s fun t =>
        (err = 0 → x.GoesOn t q.val ∧ (x.seq q.val).Wrote (t.seq q.val) ga (BitVec.ofNat 64 (ofBytes ((data.drop skip).take 8)))
            ∧ (x.seq q.val).Keeps (t.seq q.val))
          ∧ (err ≠ 0 → (t.seq q.val).st = 4#3 ∧ (t.seq q.val).fcode = 7#8 ∧ (t.seq q.val).regs = (x.seq q.val).regs
              ∧ bitOf t.irq.seqFault q.val = true ∧ ∀ m, m ≠ q.val → t.seq m = x.seq m)
          ∧ (∀ i, tabFind (t.noc n.val).openReqs i = if i = tag.toNat then none else tabFind p.openReqs i)
          ∧ t.noc n.val = { p with openReqs := (t.noc n.val).openReqs, errCnt := cnt } ∧ others t))
  ∧ (∀ (n : Fin 10) (tag : Byte) (err : BitVec 2) (s : State), s.part.Calm → s.part.NoFence →
    let x := s.part
    let p := x.noc n.val
    let freed (t : Part) : Prop :=
      (∀ i, tabFind (t.noc n.val).openReqs i = if i = tag.toNat then none else tabFind p.openReqs i)
        ∧ t.noc n.val = { p with openReqs := (t.noc n.val).openReqs, errCnt := if err = 0 then p.errCnt else p.errCnt + 1 }
        ∧ (∀ m, m ≠ n.val → t.noc m = x.noc m)
    ((∀ r k, tabFind p.openReqs tag.toNat = some (r, k) → r.wr = false) → Becomes (.nocWriteResponse n tag err) s x)
    ∧ (∀ (q : Fin 9) off len data k, tabFind p.openReqs tag.toNat = some (⟨true, off, len, data, .store q.val, []⟩, k) → p.waiting = [] →
      Acts (.nocWriteResponse n tag err) s fun t =>
        freed t ∧ t.seq q.val = { x.seq q.val with stores := (x.seq q.val).stores - 1,
                                                   wstoreErr := if err = 0 then (x.seq q.val).wstoreErr else satAdd (x.seq q.val).wstoreErr 1,
                                                   wstoreFlag := (x.seq q.val).wstoreFlag || decide (err ≠ 0) }
          ∧ (∀ m, m ≠ q.val → t.seq m = x.seq m)
          ∧ t = { x with nocs := t.nocs, seqs := t.seqs, pwr := t.pwr, twin := t.twin, out := t.out, glob := t.glob } ∧ x.TwinOnly t ∧ x.Stamped t)
    ∧ (∀ (d : Fin 64) (j : DrainJob) off len data k, tabFind p.openReqs tag.toNat = some (⟨true, off, len, data, .drainOut d.val j.id, []⟩, k) →
        p.waiting = [] → (x.dp d.val).exec = none → (x.dp d.val).pend = none → (x.dp d.val).tail = [j] → j.nocDue = 1 → j.src = none →
        Desc.evtEn j.desc = false →
      Acts (.nocWriteResponse n tag err) s fun t =>
        freed t ∧ t.dp d.val = { x.dp d.val with tail := [], tileCnt := satAdd (x.dp d.val).tileCnt 1 } ∧ (∀ m, m ≠ d.val → t.dp m = x.dp m))
    ∧ (p.waiting = [] → Becomes (.nocCreditReturn n .request) s (x.onNoc n.val fun p => { p with reqCr := p.reqCr + 1 })
        ∧ Becomes (.nocCreditReturn n .writeData) s (x.onNoc n.val fun p => { p with wrCr := p.wrCr + 1 }))
    ∧ (∀ r, p.waiting = [r] → r.wr = false → r.data = [] → r.off % 65536 + r.len ≤ 65536 → p.reqCr = 0 → p.openReqs = [] → p.merging = false →
        Becomes (.nocCreditReturn n .request) s
          { x.onNoc n.val fun p => { p with waiting := [], openReqs := [(0, (r, r.len))] } with out := .nocRead n.val 0 r.off r.len :: x.out }))

/-- R27, R28, R30, R341: a request of 1 to 4,096 credits waits, charged to its consumer's partition; another length is nothing. The guard of 256
cycles marks the oldest request of a partition that waits for pool credits below its ceiling, and counts it.
R28, R29, R30, R340: grants. A head that its floor covers, or that stays below its ceiling and finds its part of the pool free, is granted at
once, charged and listed; one that neither allows waits; and no grant takes a partition beyond its floor and its ceiling. For a Larder
on which nothing else waits. -/
def Obligations.LarderQueue : Prop :=
  (∀ (s : State),
    let x := s.part
    let l := x.larder
    (∀ (rq co : Fin 74) (k : Nat), 1 ≤ k → k ≤ 4096 →
      Acts (.larderRequest rq co k) s fun t =>
        t.larder = { l with queue := l.queue ++
            [{ id := x.nextId, requester := rq.val, consumer := co.val, part := l.active.owners.getD co.val 0, credits := k, starved := false, made := x.now }] }
          ∧ t = { (x.wake (.larder 0)).wake (.larder 1) with larder := t.larder, nextId := x.nextId + 1, glob := t.glob } ∧ x.Stamped t)
    ∧ (∀ (rq co : Fin 74) (k : Nat), k = 0 ∨ 4096 < k → Becomes (.larderRequest rq co k) s x)
    ∧ (∀ (p : Fin 16) (r : LReq), l.queue.find? (fun r => decide (r.part = p.val)) = some r →
        let occ := l.occ.getD p.val 0 + r.credits
        let guarded : Prop := r.starved = false ∧ l.active.floors.getD p.val 0 < occ ∧ occ ≤ l.active.ceils.getD p.val 0
        (guarded → Becomes (.larderStarvation p) s { x with larder :=
            { l with queue := l.queue.map fun y => if y.id = r.id then { y with starved := true } else y, starveCnt := satAdd l.starveCnt 1 } })
        ∧ (¬ guarded → Becomes (.larderStarvation p) s x)))
  ∧ (∀ (s : State), s.part.Calm →
    let x := s.part
    let l := x.larder
    x.ssu.lodges = [] → x.gh.landings = [] → x.gh.lgs = [] → x.ctxs = [] → x.twinCtxs = [] → (∀ q < 9, (x.seq q).loading = none) →
    let frame (t : Part) : Prop :=
      t = { x with larder := t.larder, twin := t.twin, out := t.out, glob := t.glob } ∧ x.TwinTold t ∧ x.Stamped t
    (∀ r : LReq, l.queue = [r] → r.part < 16 → l.occ.length = 16 →
      let occ := l.occ.getD r.part 0
      let floor := l.active.floors.getD r.part 0
      let beyond := (occ + r.credits - floor) - (occ - floor)
      let allowed : Prop := occ + r.credits ≤ floor ∨ (occ + r.credits ≤ l.active.ceils.getD r.part 0 ∧ beyond ≤ l.poolFree)
      (allowed → Acts .larderGrant s fun t =>
        t.larder.queue = [] ∧ (∃ rs, tabFind t.larder.bufs r.id = some ⟨r.credits, rs, r.part, r.consumer⟩) ∧ t.larder.occ.getD r.part 0 = occ + r.credits
          ∧ (∀ k, k ≠ r.part → t.larder.occ.getD k 0 = l.occ.getD k 0) ∧ (∀ i, i ≠ r.id → tabFind t.larder.bufs i = tabFind l.bufs i) ∧ frame t)
      ∧ (¬ allowed → Acts .larderGrant s fun t => t.larder = l ∧ frame t))
    ∧ Acts .larderGrant s fun t =>
        frame t ∧ t.larder.active = l.active
          ∧ ∀ k, t.larder.occ.getD k 0 ≤ max (l.occ.getD k 0) (max (l.active.floors.getD k 0) (l.active.ceils.getD k 0)))

/-! ## Links -/

/-- R53, R197, R202, R203, R205: a PCS credit is kept, 8 at most, where nothing waits; else the flit of the virtual lane whose turn it is leaves
at once, under the next sequence number, with the acknowledgement and the credits the lane group owes, into the replay store. Corners of the links
are log entry 28's reading. -/
def Obligations.TransmitCredits : Prop :=
  ∀ (g : Fin 8) (s : State),
    let x := s.part
    let l := x.lg g.val
    (l.Empty → Acts (.pcsTxCredit g) s fun t => x.LaneBecame t g.val { l with pcsCr := min 8 (l.pcsCr + 1) })
    ∧ (∀ v f rest, l.active = true → l.initRx = true → l.down = false → x.glob.fencedSelf = false → l.linkq = [] → l.again = [] → l.pcsCr = 0 →
        l.replay.length < 128 → l.nextVl = some v → l.queues.getD v [] = f :: rest →
      Acts (.pcsTxCredit g) s fun t =>
        Emit.flit g.val (f.header l.txSeq (l.rxSeq - 1) l.credOut.2 l.credOut.1) f.payload ∈ t.out
          ∧ (¬ x.Mirrors → t.out = .flit g.val (f.header l.txSeq (l.rxSeq - 1) l.credOut.2 l.credOut.1) f.payload :: x.out ∧ t.twin = x.twin)
          ∧ (t.lg g.val).replay = l.replay ++ [(l.txSeq, f)] ∧ (t.lg g.val).txSeq = l.txSeq + 1 ∧ (t.lg g.val).pcsCr = 0
          ∧ (t.lg g.val).queues = l.queues.set v rest ∧ (t.lg g.val).credits = l.credits.set v (l.credits.getD v 0 - 1)
          ∧ (∀ i, i ≠ l.credOut.1 → (t.lg g.val).owed.getD i 0 = l.owed.getD i 0)
          ∧ (t.lg g.val).rxSeq = l.rxSeq ∧ (t.lg g.val).asms = l.asms ∧ (∀ m, m ≠ g.val → t.lg m = x.lg m)
          ∧ t = { x with gh := { x.gh with lgs := t.gh.lgs }, twin := t.twin, out := t.out, glob := t.glob } ∧ x.TwinTold t ∧ x.Stamped t)

/-- R54, R199, R201, R202, R216, R218: a flit is accepted in link order alone: one with a FEC error or out of order is dropped and asked for again
from the number expected. The first flit of a message opens its assembly: accepted under the current role epoch, held under a newer one
while fewer than 32 are held, quarantined otherwise. Nothing arrives on a link that is not active. -/
def Obligations.FlitsInOrder : Prop :=
  ∀ (g : Fin 8) (h : BitVec 128) (pay : List Byte) (s : State), s.part.Calm →
    let x := s.part
    let l := x.lg g.val
    let src := Fh.src h
    (l.active = false ∨ x.glob.fencedSelf = true → ∀ u, Becomes (.flitReceive g h pay u) s x)
    ∧ (l.active = true → x.glob.fencedSelf = false → l.pcsCr = 0 →
        let asks : LaneGroup := { l with linkq := l.linkq ++ [.retry l.rxSeq], lpReq := false }
        Acts (.flitReceive g h pay true) s (fun t => (x.linkWoken g.val).LaneBecame t g.val asks)
        ∧ (Fh.ftype h ≠ 0 → Fh.lseq h ≠ l.rxSeq → Acts (.flitReceive g h pay false) s fun t =>
            (((x.wake (.lane g)).wake .gh).linkWoken g.val).LaneBecame t g.val asks))
    ∧ (l.active = true → x.glob.fencedSelf = false → Fh.ftype h ≠ 0 → Fh.lseq h = l.rxSeq →
        Acts (.flitReceive g h pay false) s fun t =>
          (t.lg g.val).rxSeq = l.rxSeq + 1 ∧ (∀ m, m ≠ g.val → (t.lg m).rxSeq = (x.lg m).rxSeq) ∧ t.dps = x.dps ∧ t.seqs = x.seqs ∧ t.ctxs = x.ctxs
            ∧ ∀ ty, FType.ofCode (Fh.ftype h) = some ty → ty.long = true → ty.vlOk (Fh.vl h) = true → Fh.reservedSet h = false → Fh.fidx h = 0 →
                (ty = .control → ctlMalformed pay = false) →
                (ty = .resend → ∀ w, x.vlOf g.val src (msgOf ty h pay) = some w → w = Fh.vl h) →
                (∀ m < 8, m ≠ g.val → src ∉ (x.lg m).honoured) → x.findAsm g.val src (Fh.msgid h) = none → x.answers (Fh.dst h) = true →
              let e := x.epochOf (Fh.dst h)
              let fate : RxFate := if ty.checked = false ∨ Fh.repoch h = e then .accepted
                else if newer16 (Fh.repoch h) e = true ∧ x.gh.helds.length < 32 then .held else .quarantined
              (∃ a ∈ (t.lg g.val).asms, a.src = src ∧ a.msgid = Fh.msgid h ∧ a.ftype = ty ∧ a.fate = fate ∧ a.complete = Fh.eom h ∧ a.bytes = pay)
                ∧ (fate = .held → t.gh.holdCnt = satAdd x.gh.holdCnt 1 ∧ t.gh.helds.length = x.gh.helds.length + 1)
                ∧ (fate = .quarantined → t.gh.quarCnt = satAdd x.gh.quarCnt 1 ∧ t.gh.quarHead = x.gh.quarHead + 1))

/-- R53, R55, R56, R203, R313: the link becomes active with 8 credits and says INIT before anything else; it falls inactive keeping its replay
store; its low-power state is entered when the request is acknowledged.
R26, R55, R56: its lanes follow the PCS; while the Courier is enabled the lane that carries it, of lane group 1 once lane group 0 has lost its last
lane up, asks for no low power and is woken from it. What a rise clears and when low power is asked for is read by log entry 28. -/
def Obligations.LinkStates : Prop :=
  ∀ (g : Fin 8) (s : State), s.part.Calm → s.part.glob.fencedSelf = false →
    let x := s.part
    let l := x.lg g.val
    let z : List Nat := [0, 0, 0, 0, 0, 0]
    Acts (.pcsActiveRise g) s (fun t =>
      let h : BitVec 128 := BitVec.ofNat 128 (2 ^ 7 + (l.rxSeq - 1).toNat * 2 ^ 20 + x.ownId.toNat * 2 ^ 61)
      let e : Emit := .flit g.val h (toBytes 240 LinkOut.init.bits)
      e ∈ t.out ∧ (¬ x.Mirrors → t.twin = x.twin ∧ t.out = e :: x.out) ∧ (x.wake (.lane g)).LaneBecameTold t g.val
        { l with active := true, lowPower := false, lpReq := false, pcsCr := 7, initRx := false, credits := z, owed := z, withheld := z, linkq := [],
                 again := [], claimAck := false })
    ∧ (x.twin.st ≠ 2#3 → Acts (.pcsActiveFall g) s fun t =>
        x.LaneBecame t g.val { l with active := false, initRx := false, pcsCr := 0, linkq := [] })
    ∧ (∀ up, x.courier.en = false → Acts (.pcsLaneChange g up) s fun t => x.LaneBecame t g.val { l with lanes := up })
    ∧ (∀ up, x.courier.en = true → Acts (.pcsLaneChange g up) s fun t =>
        let base (k : Nat) : LaneGroup := if k = g.val then { l with lanes := up } else x.lg k
        let mine (k : Nat) : Bool := k == 0 || (k == 1 && decide ((base 0).lanes = 0#4))
        (∀ k, t.lg k = if mine k then { base k with lpReq := false } else base k)
          ∧ t.out = (([1, 0].filter fun k => mine k && (base k).lowPower).map Emit.wakeReq) ++ x.out
          ∧ t = { x with gh := { x.gh with lgs := t.gh.lgs }, out := t.out, glob := t.glob } ∧ x.Stamped t)
    ∧ (l.lpReq = true → Acts (.pcsLpAck g) s fun t =>
        (x.onPwr fun p => { p with awake := p.awake.filter fun d => d ≠ .lane g }).LaneBecame t g.val
          { l with lpReq := false, lowPower := true, active := false })
    ∧ (l.lpReq = false → Becomes (.pcsLpAck g) s x)

/-- R202: a retry request, or 2 µs without an acknowledgement, sends every stored flit from the number on again; the eighth resend in a row takes
the lane group down, its store discarded. A number beyond the store, an empty store and a window still open change nothing. That the eighth
resend itself goes down, and that resends by the timer and by RETRY count alike, is log entry 28's reading. -/
def Obligations.Resends : Prop :=
  ∀ (g : Fin 8) (a : BitVec 12) (s : State), s.part.Calm → s.part.groups = [] → s.part.glob.fencedSelf = false →
    let x := s.part
    let l := x.lg g.val
    let qs (a : BitVec 12) := (l.replay.map Prod.fst).filter fun b => decide ((b - a).toNat < 2048)
    let count (t : Part) : Prop := t.gh.retryCnt = satAdd x.gh.retryCnt 1
    let again (l' : LaneGroup) (t : Part) : Prop :=
      t.lg g.val = l' ∧ (∀ m, m ≠ g.val → t.lg m = x.lg m) ∧ count t
        ∧ t = { x with gh := { x.gh with lgs := t.gh.lgs, retryCnt := t.gh.retryCnt }, glob := t.glob } ∧ x.Stamped t
    let downNow (t : Part) : Prop :=
      (t.lg g.val).down = true ∧ (t.lg g.val).replay = [] ∧ bitOf t.irq.ghDown g.val = true ∧ count t
    (qs a = [] → Becomes (.linkRetry g a) s x)
    ∧ (qs a ≠ [] → l.Stuck → l.resends < 7 → Acts (.linkRetry g a) s (again { l with again := qs a, resends := l.resends + 1 }))
    ∧ (qs a ≠ [] → l.Stuck → l.resends = 7 → Acts (.linkRetry g a) s downNow)
    ∧ (l.replay = [] ∨ x.now < l.lackTime + 2000 → Becomes (.linkRetryTimer g) s x)
    ∧ (∀ r rest, l.replay = r :: rest → l.lackTime + 2000 ≤ x.now → l.Stuck →
        (l.resends < 7 → Acts (.linkRetryTimer g) s (again { l with again := qs r.1, resends := l.resends + 1, lackTime := x.now }))
        ∧ (l.resends = 7 → Acts (.linkRetryTimer g) s downNow))

/-- R203, R266, R286: INIT brings the far end's buffers and the lane group into service; credits come back to their virtual lanes, where nothing waits
to be sent; a keep-alive is heard, one of an identity claimed on another link answered FENCED_ID. A link that has sent nothing for 1 µs says the
credits it owes, or that it lives; a lane group that is down is woken every 1 ms while K0 runs. Before those times nothing happens, and an instance that has fenced itself acts on
no LINK flit. Corners of the
links are log entry 28's reading. -/
def Obligations.LinkFlits : Prop :=
  ∀ (g : Fin 8) (s : State),
    let x := s.part
    let l := x.lg g.val
    let idle : Prop := l.active = true ∧ l.initRx = true ∧ l.lastSent + 1000 ≤ x.now
    let retry : Prop := l.down = true ∧ bitOf x.mb.keeperUp 0 = true ∧ bitOf x.mb.halted 0 = false ∧ l.retryAt + 1000000 ≤ x.now
    (x.glob.fencedSelf = true → ∀ (v : List W16) (i : FabId) (a : BitVec 12),
        Becomes (.linkInit g v) s x ∧ Becomes (.linkCreditReturn g v) s x ∧ Becomes (.linkKeepalive g i) s x ∧ Becomes (.linkRetry g a) s x
          ∧ Becomes (.claim g i i) s x ∧ Becomes (.claimAck g i) s x ∧ Becomes (.claimRefused g i) s x ∧ Becomes (.fencedId g i) s x)
    ∧ (∀ bufs : List W16, x.glob.fencedSelf = false → bufs.length = 6 → x.Calm → l.Empty → x.pwr.bootStep ≠ 9 → Acts (.linkInit g bufs) s fun t =>
      x.TwinOnly t ∧ x.LaneBecameTold t g.val { l with initRx := true, down := false, credits := bufs.map fun (b : W16) => b.toNat })
    ∧ (∀ c : List W16, x.glob.fencedSelf = false → c.length = 6 → l.Empty → l.credits.length = 6 → Acts (.linkCreditReturn g c) s fun t =>
        (∀ v < 6, (t.lg g.val).credits.getD v 0 = l.credits.getD v 0 + (c.getD v 0).toNat)
          ∧ x.TwinOnly t ∧ x.LaneBecameTold t g.val { l with credits := (t.lg g.val).credits })
    ∧ (∀ src : FabId, x.glob.fencedSelf = false → x.claimedElsewhere g.val src = false → Acts (.linkKeepalive g src) s fun t =>
        tabFind (t.lg g.val).heard src.toNat = some x.now ∧ (∀ i, i ≠ src.toNat → tabFind (t.lg g.val).heard i = tabFind l.heard i)
          ∧ x.LaneBecame t g.val { l with heard := (t.lg g.val).heard })
    ∧ (∀ src : FabId, x.glob.fencedSelf = false → x.claimedElsewhere g.val src = true → l.Stuck → Acts (.linkKeepalive g src) s fun t =>
        (x.linkWoken g.val).LaneBecame t g.val { l with linkq := l.linkq ++ [.claim 4 src], lpReq := false })
    ∧ (¬ idle → Becomes (.linkIdleTimer g) s x)
    ∧ (idle → l.pcsCr = 0 → sumN l.owed = 0 → Acts (.linkIdleTimer g) s fun t =>
        (x.linkWoken g.val).LaneBecame t g.val { l with lastSent := x.now, linkq := l.linkq ++ [.keepalive], lpReq := false })
    ∧ (idle → l.pcsCr = 0 → sumN l.owed ≠ 0 → Acts (.linkIdleTimer g) s fun t =>
        (x.linkWoken g.val).LaneBecame t g.val
          { l with lastSent := x.now, owed := [0, 0, 0, 0, 0, 0], linkq := l.linkq ++ [.credits l.owed], lpReq := false })
    ∧ (¬ retry → Becomes (.laneRetryTimer g) s x)
    ∧ (retry → Acts (.laneRetryTimer g) s fun t =>
        ({ x with out := .wakeReq g.val :: x.out } : Part).LaneBecame t g.val { l with retryAt := x.now })

/-- R265, R266, R269: a claim is honoured on its link while its identity has not been heard there for 4 µs, and refused otherwise; an
acknowledgement counts within the claim window, the last one brings the twin's identity into service; a refusal splits the pair, unless the
window has ended, whose end comes first (R138); an instance whose own identity is fenced stops. -/
def Obligations.Claims : Prop :=
  ∀ (g : Fin 8) (src cid : FabId) (s : State), s.part.Calm → s.part.groups = [] → s.part.glob.fencedSelf = false →
    let x := s.part
    let l := x.lg g.val
    let mine : Prop := x.twin.st = 2#3 ∧ cid = x.twinId
    let inTime : Prop := x.now < x.twin.winAt + x.twin.claimTmo.toNat
    let pending (m : Nat) : Prop := (x.lg m).active = true ∧ (x.lg m).down = false ∧ (x.lg m).claimAck = false
    let heard : Prop := ∃ m < 8, ∃ t0, tabFind (x.lg m).heard cid.toNat = some t0 ∧ x.now < t0 + 4000
    (heard → l.Stuck → Acts (.claim g src cid) s fun t =>
      (x.linkWoken g.val).LaneBecame t g.val { l with linkq := l.linkq ++ [.claim 3 cid], lpReq := false, heard := tabInsert l.heard src.toNat x.now })
    ∧ (¬ heard → l.Stuck → Acts (.claim g src cid) s fun t =>
        cid ∈ (t.lg g.val).honoured
          ∧ (x.linkWoken g.val).LaneBecame t g.val
            { l with honoured := (t.lg g.val).honoured, linkq := l.linkq ++ [.claim 2 cid], lpReq := false, heard := tabInsert l.heard src.toNat x.now })
    ∧ (¬ (mine ∧ inTime) → Becomes (.claimAck g cid) s x)
    ∧ (mine → inTime → (∃ m < 8, m ≠ g.val ∧ pending m) → Acts (.claimAck g cid) s fun t => x.LaneBecame t g.val { l with claimAck := true })
    ∧ (mine → inTime → (∀ m < 8, m ≠ g.val → ¬ pending m) → x.twin.mirror = .reset → Acts (.claimAck g cid) s fun t =>
        t.twin.st = 3#3 ∧ t.gh.identTwin = x.twinId ∧ t.gh.twinValid = true ∧ t.irq.twin = true ∧ t.seqs = x.seqs ∧ t.ctxs = x.ctxs)
    ∧ (x.twin.st = 2#3 → ¬ inTime → (∀ m < 8, ¬ pending m) → x.twin.mirror = .reset → Acts (.claimRefused g cid) s fun t =>
        t.twin.st = 3#3 ∧ t.gh.identTwin = x.twinId ∧ t.gh.twinValid = true ∧ t.irq.twin = true ∧ t.seqs = x.seqs ∧ t.ctxs = x.ctxs)
    ∧ (mine → inTime → Acts (.claimRefused g cid) s fun t =>
        t.twin.st = 4#3 ∧ t.irq.twin = true ∧ (∀ m < 8, (t.lg m).claimAck = false) ∧ t.gh.twinValid = x.gh.twinValid ∧ t.seqs = x.seqs ∧ t.ctxs = x.ctxs)
    ∧ (¬ mine → x.twin.st ≠ 2#3 ∨ inTime → Becomes (.claimRefused g cid) s x)
    ∧ (cid = x.ownId → Acts (.fencedId g cid) s fun t =>
        t.glob.fencedSelf = true ∧ t.irq.fatal = true
          ∧ (∀ q < 9, (t.seq q).st = (if (x.seq q).st = 1#3 ∨ (x.seq q).st = 2#3 then 5#3 else (x.seq q).st) ∧ (t.seq q).pc = (x.seq q).pc
              ∧ (t.seq q).regs = (x.seq q).regs) ∧ t.dps = x.dps ∧ t.ctxs = x.ctxs)
    ∧ (cid ≠ x.ownId → Becomes (.fencedId g cid) s x)

/-! ## Messages -/

/-- R137, R206, R212, R218, R22: windows of messages. An incomplete message, or one that waits for its verdict, held for its role epoch or not, is
dropped and counted once its window has ended; a message whose ACK window has ended completes its transfer with ACK_TIMEOUT; a message held for its role epoch is quarantined
after 1 ms; the last flit accepted opens the ACK window and returns the buffer. Before their ends nothing happens. -/
def Obligations.MessageWindows : Prop :=
  ∀ (src : FabId) (msgid : W16) (s : State), s.part.Still →
    let x := s.part
    let tmo := x.gh.msgTmo.toNat
    let late (m : OutMsg) : Prop := m.expectsAck = true ∧ ∃ t0, m.acceptedAt = some t0 ∧ t0 + x.gh.ackTmo.toNat ≤ x.now
    let early : Prop := ∀ h, x.findHeld src msgid = some h → h.awaits = false ∨ x.now < h.last + tmo
    (early → x.gh.xfers = [] → x.gh.lgs = [] → x.gh.landings = [] → Becomes (.messageTimeout src msgid) s x)
    ∧ (∀ h, x.gh.xfers = [] → x.gh.lgs = [] → x.gh.landings = [] → x.gh.helds = [h] → h.src = src → h.msgid = msgid → h.awaits = true → h.last + tmo ≤ x.now →
        Becomes (.messageTimeout src msgid) s { x with gh := { x.gh with helds := [], msgDropCnt := satAdd x.gh.msgDropCnt 1 } })
    ∧ (∀ (g : Fin 8) a, early → x.gh.xfers = [] → x.gh.landings = [] → x.findAsm g.val src msgid = some a → (∀ m < 8, m ≠ g.val → x.findAsm m src msgid = none) →
        a.complete = false → a.fate = .accepted → Acts (.messageTimeout src msgid) s fun t =>
          (a.last + tmo ≤ x.now → t.findAsm g.val src msgid = none ∧ t.gh.msgDropCnt = satAdd x.gh.msgDropCnt 1)
            ∧ (x.now < a.last + tmo → (t.lg g.val).asms = (x.lg g.val).asms ∧ t.gh.msgDropCnt = x.gh.msgDropCnt)
            ∧ (∀ b, a.buf = some b → a.last + tmo ≤ x.now → tabFind t.larder.bufs b = none)
            ∧ (a.buf = none ∨ x.now < a.last + tmo → t.larder = x.larder ∧ t.twin = x.twin ∧ t.out = x.out)
            ∧ t = { x with gh := { x.gh with lgs := t.gh.lgs, helds := t.gh.helds, msgDropCnt := t.gh.msgDropCnt }, larder := t.larder,
                           twin := t.twin, out := t.out, glob := t.glob } ∧ x.TwinTold t ∧ x.Stamped t)
    ∧ (∀ l, early → x.gh.xfers = [] → x.gh.lgs = [] → x.gh.landings = [l] → l.src = src → l.msgid = msgid → l.waitVerdict = true ∨ l.waitResend = true → l.buf = none →
        (l.since + tmo ≤ x.now → Becomes (.messageTimeout src msgid) s
          { x with gh := { x.gh with landings := [], msgDropCnt := satAdd x.gh.msgDropCnt 1 } })
        ∧ (x.now < l.since + tmo → Becomes (.messageTimeout src msgid) s x))
    ∧ (∀ m, tabFind x.gh.outMsgs msgid.toNat = some m → ¬ late m → Becomes (.ackTimeout msgid) s x)
    ∧ (∀ m f, tabFind x.gh.outMsgs msgid.toNat = some m → late m → x.NoFence → m.ftype = .send ∨ m.ftype = .put → x.gh.xfers = [(m.xfer.toNat, f)] →
        f.status = 0 → Acts (.ackTimeout msgid) s fun t =>
          t.gh.xfers = [] ∧ tabFind t.gh.outMsgs msgid.toNat = none ∧ (m.dst, msgid) ∈ t.gh.expired
            ∧ (x.gb.base ≠ 0 → x.mb.runs 3 = true → ∃ e : GuestEntry, t.Logged (x.gb.place x.gb.wr.toNat) e ∧ e.src = 0 ∧ e.level = 2 ∧ e.tp = 0x0403
                ∧ e.args = [BitVec.ofNat 32 m.xfer.toNat, BitVec.ofNat 32 msgid.toNat] ∧ e.time = x.now)
            ∧ (Xb.evtEn f.blk = true → (x.seq f.seq).wait = .none → (x.seq f.seq).event (Xb.event f.blk) = (0, 0) →
                (t.seq f.seq).event (Xb.event f.blk) = (1, evStatus 2 0x21 m.xfer.toNat f.done))
            ∧ t.dps = x.dps ∧ t.ctxs = x.ctxs ∧ t.courier = x.courier)
    ∧ (∀ h, x.findHeld src msgid = some h →
        (x.now < h.since + 1000000 → Becomes (.epochHoldExpiry src msgid) s x)
        ∧ (h.since + 1000000 ≤ x.now → Acts (.epochHoldExpiry src msgid) s fun t =>
            t.findHeld src msgid = none ∧ t.gh.quarCnt = satAdd x.gh.quarCnt 1 ∧ t.gh.quarHead = x.gh.quarHead + 1
              ∧ tabFind t.gh.quar x.gh.quarHead.toNat = some ⟨h.hdr, x.now, h.repoch, 0x11⟩ ∧ t.gh.landings = x.gh.landings))
    ∧ (∀ m, tabFind x.gh.outMsgs msgid.toNat = some m → m.buf = none → m.ftype ≠ .tether → Becomes (.lastFlitAccepted msgid) s
        { x.worked .gh with gh := { x.gh with outMsgs := tabInsert x.gh.outMsgs msgid.toNat { m with acceptedAt := some x.now } } })
    ∧ (∀ m b, tabFind x.gh.outMsgs msgid.toNat = some m → m.buf = some b → Acts (.lastFlitAccepted msgid) s fun t =>
        tabFind t.larder.bufs b = none ∧ ∀ o, tabFind t.gh.outMsgs msgid.toNat = some o → o.buf = none)

/-- R111, R195, R201, R207, R210, R215: a whole SEND, PUT or GETRSP that asks for no verdict lands: its writes go to Gatehouse port 1 in order, inside an
export window of the identity addressed for SEND and PUT; one of two tiles whose blocks run over both, to be widened here, takes a buffer and
waits for the other (log entry 12). What a header must hold is written out: R201 names MX codes alone, and
that FP16 and the running-sum formats are refused with them is inferred from R244's field WFMT (log entry 58); a message that breaks it counts as a bad flit; a message for an identity not
answered for, or one quarantined, is discarded. Port 1 is without credits here, so that its queue shows the writes, and no credit is held
back that could be given back. Which port carries what is log entry 25's reading. -/
def Obligations.MessagesLand : Prop :=
  ∀ (m : RxMsg) (s : State), s.part.Calm → (∀ g < 8, ∀ v < 6, (s.part.lg g).withheld.getD v 0 = 0 ∨ s.part.vlWaits g v = true) →
    let x := s.part
    let h := m.hdr
    let l0 (ty : FType) : Landing :=
      { id := x.nextId, src := m.src, dst := m.dst, lg := m.lg.val, msgid := m.msgid, ftype := ty, hdr := h, body := m.body, buf := none, waitBuf := false,
        waitVerdict := false, waitResend := false, since := x.now, nocDue := 0, nocErr := false, started := false }
    let ws := x.landWrites false (l0 .send)
    let form : Prop := Mh.reservedSet h = false ∧ Mh.body h = Mh.rows h * (8 + Mh.unitElems h * (((Fmt.ofCode (Mh.wfmt h)).map Fmt.width).getD 0) / 8)
      ∧ m.body.length = Mh.body h ∧ ∀ f, Fmt.ofCode (Mh.wfmt h) = some f → f.isMx = false ∧ f.isRun = false ∧ f ≠ .fp16
    let reqs := (ws.1.map fun w => (pieces (w.2.length / 64 + 2) w.1 w.2.length).map fun p =>
      (⟨true, p.1, p.2, (w.2.drop (p.1 - w.1)).take p.2, .landing x.nextId, []⟩ : NocReq)).flatten
    let lands (t : Part) : Prop :=
      (t.noc 9).waiting = (x.noc 9).waiting ++ reqs ∧ (∀ n, n ≠ 9 → t.noc n = x.noc n)
        ∧ (∃ l, t.gh.landings = [l] ∧ l.src = m.src ∧ l.msgid = m.msgid ∧ l.nocDue = reqs.length ∧ l.started = true ∧ l.hdr = m.hdr)
        ∧ (∀ g, t.lg g = x.lg g) ∧ t.ssu = (x.ledgerErr ws.2).ssu
        ∧ t = { x.wake .gh with nocs := t.nocs, gh := { x.gh with landings := t.gh.landings, lgs := t.gh.lgs }, ssu := t.ssu, nextId := t.nextId, glob := t.glob }
    let fresh : Prop := x.findAsm m.lg.val m.src m.msgid = none
    let own : Prop := m.dst = x.ownId ∧ fresh
    let windows : Prop := x.windowOk m.dst true (extentLo ws.1) (extentHi ws.1) = true
    let lone : Prop := hdrOk false h m.body = true ∧ Mh.vreq h = false ∧ x.gh.landings = []
    let good : Prop := lone ∧ x.needsHalf (l0 .send) false = false ∧ (x.noc 9).reqCr = 0
    let halves (t : Part) : Prop := ∃ l, t.gh.landings = [l] ∧ l.src = m.src ∧ l.msgid = m.msgid ∧ l.waitHalf = true ∧ l.since = x.now ∧ l.body = m.body
      ∧ x.Asked t 72 ((m.body.length + 1023) / 1024) ∧ t.nocs = x.nocs ∧ t.dps = x.dps ∧ t.ssu = x.ssu
    let bad (t : Part) : Prop :=
      t.gh.badFlitCnt = satAdd x.gh.badFlitCnt 1 ∧ t.gh.landings = x.gh.landings ∧ t.nocs = x.nocs ∧ (∀ g, t.lg g = x.lg g) ∧ t.ssu = x.ssu
        ∧ t = { x.wake .gh with gh := { x.gh with badFlitCnt := t.gh.badFlitCnt, lgs := t.gh.lgs }, glob := t.glob }
    let noAnswer : Prop := x.answers m.src = false ∧ x.route m.src 0xFF = none
    let ignored (t : Part) : Prop := (∀ g, t.lg g = x.lg g) ∧ t = { x with gh := { x.gh with lgs := t.gh.lgs }, glob := t.glob }
    (hdrOk false h m.body = true ↔ form ∧ (Fmt.ofCode (Mh.wfmt h)).isSome = true ∧ (Mh.lfmt h = 0 ∨ Mh.lfmt h = 2 ∨ Mh.lfmt h = Mh.wfmt h))
    ∧ (own → lone → x.needsHalf (l0 .send) false = true → (∀ b, x.granted b = true → b < x.nextId) → Acts (.send m) s halves ∧ Acts (.put m) s halves)
    ∧ (own → good → windows → Acts (.send m) s lands ∧ Acts (.put m) s lands)
    ∧ (own → good → Acts (.getrsp m) s lands)
    ∧ (own → hdrOk false m.hdr m.body = false → noAnswer → Acts (.send m) s bad ∧ Acts (.put m) s bad ∧ Acts (.getrsp m) s bad ∧ Acts (.arrive m) s bad)
    ∧ (x.answers m.dst = false → fresh → Acts (.send m) s ignored ∧ Acts (.put m) s ignored ∧ Acts (.getrsp m) s ignored ∧ Acts (.arrive m) s ignored
        ∧ Acts (.getreq m) s ignored)
    ∧ (∀ a, x.answers m.dst = true → x.findAsm m.lg.val m.src m.msgid = some a → a.fate = .quarantined → Acts (.send m) s fun t =>
        t.findAsm m.lg.val m.src m.msgid = none ∧ t.gh.landings = x.gh.landings ∧ t.nocs = x.nocs)

/-- R24, R111, R208, R214: an arrive-and-start tile asks the Larder for 32 credits of its drain port and waits for them, or is refused and counted by a
fenced port; a GETREQ inside an export window reads its rows from die memory at Gatehouse port 0, in whole lines (R50), both tiles of a pair where the rotation
runs over 256 elements (log entry 29), one outside, or of a stream that may not narrow so (R23, R97), reads nothing; a message that
asks for a verdict takes a buffer and waits for it. Ports are log entry 25's reading, the opening of what R47 and R200 leave open log entry 50's. -/
def Obligations.MessagesStart : Prop :=
  ∀ (m : RxMsg) (s : State), s.part.Calm → m.dst = s.part.ownId → s.part.findAsm m.lg.val m.src m.msgid = none →
    s.part.answers m.src = false → s.part.route m.src 0xFF = none →
    let x := s.part
    let h := m.hdr
    let d := Mh.dpn h
    let ask (consumer credits : Nat) (t : Part) : Prop :=
      t.larder = { x.larder with queue := x.larder.queue ++ t.larder.queue.drop x.larder.queue.length }
        ∧ ∃ r : LReq, t.larder.queue = x.larder.queue ++ [r] ∧ r.consumer = consumer ∧ r.credits = credits ∧ r.requester = 72
    let waits (p : Landing → Prop) (t : Part) : Prop := ∃ l, t.gh.landings = x.gh.landings ++ [l] ∧ l.src = m.src ∧ l.msgid = m.msgid ∧ l.buf.isSome = true ∧ p l
    let rows := fld h 24 7 + 1
    let off := fld h 64 47
    let pitch := fld h 160 24 * 64
    let sz := if fld h 0 5 = 0 then 4 else 2
    let reqOk : Prop := (fld h 0 5 = 0 ∨ fld h 0 5 = 2) ∧ m.body.length = 32 ∧ Gq.reservedSet h = false
      ∧ ∃ f, Fmt.ofCode (fld h 5 5) = some f ∧ f.isMx = false ∧ f.isRun = false ∧ f ≠ .fp16
    let e := x.stream (Gq.stream h)
    let k := Mh.ctile (BitVec.ofNat 256 (ofBytes m.body))
    let pair : Bool := match Fmt.ofCode (fld h 5 5) with | some f => f.isLedger && decide (e.rotBlock = 256) | none => false
    let back := if pair then k % 2 * 128 * sz else 0
    let width := if pair then 256 else 128
    let served : Prop := e.smoothEn = false ∧ (pair = true → e.tiles % 2 = 0) ∧ ∀ f, Fmt.ofCode (fld h 5 5) = some f → mapBad e f = false
      ∧ (f.isLedger = true → signsPast e (if pair then k / 2 * 2 + 2 else k + 1) = false)
    let inside : Prop := back ≤ off ∧ x.windowOk m.dst false (off - back) (off - back + (rows - 1) * pitch + width * sz) = true
    (hdrOk false h m.body = true → Mh.lfmt h = 2 → Mh.vreq h = false → (x.dp d).fenced = false → (∀ l ∈ x.gh.landings, l.id ≠ x.nextId) →
      x.granted (x.nextId + 1) = false →
      Acts (.arrive m) s fun t => ask d 32 t ∧ waits (fun l => l.waitBuf = true) t ∧ t.dps = x.dps ∧ t.nocs = x.nocs)
    ∧ (hdrOk false h m.body = true → Mh.lfmt h = 2 → Mh.vreq h = false → (x.dp d).fenced = true →
      Acts (.arrive m) s fun t => t.dp d = { x.dp d with abortCnt := satAdd (x.dp d).abortCnt 1 } ∧ (∀ n, n ≠ d → t.dp n = x.dp n)
        ∧ t.gh.refusedTiles = x.gh.refusedTiles + 1 ∧ t.larder = x.larder ∧ t.nocs = x.nocs)
    ∧ (hdrOk false h m.body = true → Mh.vreq h = true → Acts (.send m) s fun t =>
        ask 72 ((m.body.length + 1023) / 1024) t ∧ waits (fun l => l.waitVerdict = true ∧ l.since = x.now ∧ l.body = m.body) t ∧ t.dps = x.dps ∧ t.nocs = x.nocs)
    ∧ (reqOk → inside → served → (x.noc 8).reqCr = 0 → Acts (.getreq m) s fun t =>
        (∃ j, t.gh.srcJobs = x.gh.srcJobs ++ [j] ∧ j.dst = m.src ∧ j.off = off - back ∧ j.pitch = pitch ∧ j.rows = rows ∧ j.due = rows
          ∧ j.col = k ∧ (t.noc 8).waiting = (x.noc 8).waiting ++ (List.range rows).map fun r =>
              ⟨false, (off - back + r * pitch) / 64 * 64, ((off - back) % 64 + width * sz + 63) / 64 * 64, [], .source j.id r, []⟩)
          ∧ (∀ n, n ≠ 8 → t.noc n = x.noc n) ∧ t.gh.landings = x.gh.landings ∧ t.larder = x.larder)
    ∧ (reqOk → ¬ inside ∨ ¬ served → Acts (.getreq m) s fun t => t.gh.srcJobs = x.gh.srcJobs ∧ t.nocs = x.nocs ∧ t.gh.landings = x.gh.landings)

/-- R135, R136, R206, R210, R284: a misfit verdict gives the buffer back and waits for the re-send; one after its window drops the message; a verdict for no
message does nothing; a re-send lands in the writes that the last clause spells out; a held message keeps both, within the window that its last flit opened. A verdict leaves directly
behind the last flit of its message, on a misfit with the RESEND of the retained wide units behind it, their MISFIT set, what an uncorrectable
error of the retention copy struck poisoned. Ports are log entry 25's reading.
R83, R101, R102, R207, R210: a narrow landing of a re-send narrows each wide unit again to its original format, at a live scale over the unit's
decoded values, and writes its codes at the unit's place, in the original width, and its record, MISFIT set, to the LEDGER plane; a wide
landing widens each unit. A malformed record poisons its unit (R81). -/
def Obligations.Verdicts : Prop :=
  (∀ (m : RxMsg) (misfit : Bool) (clips : W32) (err : ChunkErr) (lerr : LarderErr) (s : State), s.part.Calm →
    let x := s.part
    let waits (l : Landing) : Prop := x.gh.landings = [l] ∧ l.src = m.src ∧ l.msgid = m.msgid ∧ l.buf = none
    let inTime (l : Landing) : Prop := x.now < l.since + x.gh.msgTmo.toNat
    let ws (l : Landing) := x.landWrites true { l with hdr := m.hdr, body := m.body }
    let queue (o : OutMsg) := (x.lg o.lg).queues.getD o.vl []
    let reqs (l : Landing) := ((ws l).1.map fun w => writeReqs w.1 w.2 (.landing l.id)).flatten
    let copies (o : OutMsg) : List LUnit := o.keep.zipIdx.map fun u =>
      let r := { u.1.led with misfit := true }
      { u.1 with led := match err with
        | .record k => if k = u.2 then { r with scale := 0x3F80, count := 0, poison := true, absent := true } else r
        | .elements k => if k = u.2 then { r with poison := true } else r
        | _ => r }
    let verdict (o : OutMsg) :=
      mkFlits .verdict o.vl o.dst x.ownId (x.roleOf o.dst) m.msgid (toBytes 2 m.msgid.toNat ++ toBytes 2 (b2n o.misfit) ++ toBytes 4 o.clips)
        ++ if o.misfit then
            let body := unitsBytes (copies o)
            mkFlits .resend o.vl o.dst x.ownId (x.roleOf o.dst) m.msgid (toBytes 32 (setFld (setFld (setFld o.hdr 0 5 2) 32 32 body.length) 22 1 0).toNat ++ body)
          else []
    let sent (o : OutMsg) : Prop := (x.lg o.lg).hold.getD o.vl none = some (x.ownId, m.msgid)
    let last (f : Flit) : Prop := f.vnext = true ∧ f.src = x.ownId ∧ f.msgid = m.msgid
    (∀ h, x.findHeld m.src m.msgid = some h → h.awaits = false ∨ x.now < h.last + x.gh.msgTmo.toNat → Acts (.verdict m.src m.msgid misfit clips) s fun t =>
        t.findHeld m.src m.msgid = some { h with verdict := some (misfit, clips), last := if misfit = true ∧ h.verdict = none then x.now else h.last }
          ∧ t.gh.landings = x.gh.landings)
    ∧ (∀ h, x.gh.helds = [h] → h.src = m.src → h.msgid = m.msgid → h.awaits = true → h.last + x.gh.msgTmo.toNat ≤ x.now → x.findLanding m.src m.msgid = none →
        Becomes (.verdict m.src m.msgid misfit clips) s { x with gh := { x.gh with helds := [], msgDropCnt := satAdd x.gh.msgDropCnt 1 } })
    ∧ (x.findHeld m.src m.msgid = none → x.findLanding m.src m.msgid = none → Becomes (.verdict m.src m.msgid misfit clips) s x)
    ∧ (∀ l, x.findHeld m.src m.msgid = none → waits l → l.waitVerdict = true → inTime l → Becomes (.verdict m.src m.msgid true clips) s
        { x with gh := { x.gh with landings := [{ l with waitVerdict := false, waitResend := true, since := x.now, body := [] }] } })
    ∧ (∀ l, x.findHeld m.src m.msgid = none → waits l → l.waitVerdict = true → ¬ inTime l → Becomes (.verdict m.src m.msgid misfit clips) s
        { x with gh := { x.gh with landings := [], msgDropCnt := satAdd x.gh.msgDropCnt 1 } })
    ∧ (∀ l, x.findHeld m.src m.msgid = none → x.findAsm m.lg.val m.src m.msgid = none → waits l → l.waitVerdict = false → l.waitResend = true →
        hdrOk true m.hdr m.body = true → Mh.wfmt m.hdr = 2 → Mh.lfmt m.hdr = Mh.lfmt l.hdr → inTime l → l.dst = x.ownId → l.ftype = .send → (x.noc 9).reqCr = 0 →
        x.needsHalf { l with hdr := m.hdr, body := m.body } true = false → x.windowOk l.dst true (extentLo (ws l).1) (extentHi (ws l).1) = true →
        Acts (.resend m) s fun t =>
          (t.noc 9).waiting = (x.noc 9).waiting ++ reqs l
            ∧ (∃ y, t.gh.landings = [y] ∧ y.waitResend = false ∧ y.started = true ∧ y.nocDue = (reqs l).length)
            ∧ (∀ n, n ≠ 9 → t.noc n = x.noc n) ∧ t.dps = x.dps ∧ t.seqs = x.seqs)
    ∧ ((∀ o, tabFind x.gh.outMsgs m.msgid.toNat = some o → o.verdict ≠ .awaited) → Becomes (.verdictToGatehouse ⟨m.msgid, err, lerr⟩) s x)
    ∧ (∀ o, tabFind x.gh.outMsgs m.msgid.toNat = some o → o.verdict = .awaited → x.answers o.dst = false → (x.lg o.lg).active = false →
        o.vl < (x.lg o.lg).queues.length →
        Acts (.verdictToGatehouse ⟨m.msgid, err, lerr⟩) s fun t =>
          (∃ k, tabFind t.gh.outMsgs m.msgid.toNat = some { o with verdict := .sent o.misfit, keep := k } ∧ (o.misfit = false → k = o.keep))
            ∧ t.larder.ueCnt = (if o.misfit && lerr.isUe then satAdd x.larder.ueCnt 1 else x.larder.ueCnt)
            ∧ t.larder.ceCnt = (if o.misfit && decide (lerr = .corrected) then satAdd x.larder.ceCnt 1 else x.larder.ceCnt)
            ∧ (sent o → (t.lg o.lg).queues = (x.lg o.lg).queues.set o.vl (verdict o ++ queue o) ∧ (t.lg o.lg).hold = (x.lg o.lg).hold.set o.vl none)
            ∧ (¬ sent o → ∀ a f b, queue o = a ++ f :: b → last f → (∀ g ∈ a ++ b, ¬ last g) →
                (t.lg o.lg).queues = (x.lg o.lg).queues.set o.vl (a ++ { f with vnext := false } :: verdict o ++ b))
            ∧ (¬ sent o → (∀ f ∈ queue o, ¬ last f) → (t.lg o.lg).queues = (x.lg o.lg).queues.set o.vl (queue o ++ verdict o))
            ∧ (∀ n, n ≠ o.lg → t.lg n = x.lg n) ∧ t.dps = x.dps ∧ t.nocs = x.nocs ∧ t.seqs = x.seqs))
  ∧ (∀ (l : Landing) (f : Fmt) (s : State), Mh.wfmt l.hdr = 2 → Fmt.ofCode (Mh.lfmt l.hdr) = some f →
    let h := l.hdr
    let e := (s.part.inSet l.ftype h).1
    let us := msgUnits h l.body
    let map := e.map && decide (f = .int8 ∨ f = .uint8) && decide (e.cls = 0)
    let place (r : Nat) := Mh.data h + r * Mh.pitch h * 64
    let again (u y : LUnit) : Prop :=
      let vals := decodeUnit .bf16 (Mh.unitElems h) u
      let sc := if map then asymScale f e.pow2 (minOf vals) (maxOf vals) else (symScale f e.pow2 (amaxOf vals), 0)
      let es := vals.map (encodeElem f map sc.1 sc.2)
      y.els = packCodes f.width (es.map Enc.code)
        ∧ y.led = { u.led with scale := sc.1, zp := sc.2, misfit := true, wide := false, clipped := u.led.clipped || es.any Enc.clip
                               poison := u.led.poison || u.led.malformed .bf16 (some e.cls.toNat) || es.any Enc.poison }
    (f.isLedger = true → ∃ ys : List LUnit, ys.length = us.length ∧ (∀ (r : Nat) u y, us[r]? = some u → ys[r]? = some y → again u y)
      ∧ (s.part.landWrites true l).1 = (ys.zipIdx.map fun y => (place y.2, y.1.els)) ++ [(Mh.ledger h, (ys.map fun y => toBytes 8 y.led.word.toNat).flatten)])
    ∧ (f.isLedger = false → landsNarrow h us = false →
        (s.part.landWrites true l).1 = (us.zipIdx.map fun u => (place u.2, (s.part.widen l f u.2 u.1).1))))

/-- R138, R211, R212, R213, R218, R248: an ACK of the identity that a message went to (log entry 50) ends it: its transfer counts it, or ends with the status and its event; one after its message's window counts
late, its transfer ending with ACK_TIMEOUT if the end of the window has not been seen yet, and one of no message is nothing. A NACK counts, teaches the newer role epoch while K0 runs, and ends its message. -/
def Obligations.Answers : Prop :=
  ∀ (src : FabId) (msgid : W16) (xf status : Byte) (s : State), s.part.Still → s.part.NoFence →
    let x := s.part
    let mine (o : OutMsg) (f : Xfer) : Prop :=
      tabFind x.gh.outMsgs msgid.toNat = some o ∧ (o.ftype = .send ∨ o.ftype = .put) ∧ (∀ a, o.acceptedAt = some a → x.now < a + x.gh.ackTmo.toNat) ∧ (src, msgid) ∉ x.gh.expired
        ∧ o.dst = src
        ∧ x.gh.xfers = [(o.xfer.toNat, f)] ∧ f.status = 0
    let isOver (code : Nat) (f : Xfer) (o : OutMsg) (n : Nat) (t : Part) : Prop :=
      t.gh.xfers = [] ∧ tabFind t.gh.outMsgs msgid.toNat = none
        ∧ (Xb.evtEn f.blk = true → (x.seq f.seq).wait = .none → (x.seq f.seq).event (Xb.event f.blk) = (0, 0) →
            (t.seq f.seq).event (Xb.event f.blk) = (1, evStatus 2 code o.xfer.toNat n))
        ∧ t.dps = x.dps ∧ t.ctxs = x.ctxs ∧ t.nocs = x.nocs
    ((src, msgid) ∈ x.gh.expired → Acts (.ack src msgid xf status) s fun t =>
        t.gh.ackLateCnt = satAdd x.gh.ackLateCnt 1 ∧ (src, msgid) ∉ t.gh.expired
          ∧ t = { x with gh := { x.gh with ackLateCnt := t.gh.ackLateCnt, expired := t.gh.expired }, glob := t.glob } ∧ x.Stamped t)
    ∧ ((src, msgid) ∉ x.gh.expired → (∀ o, tabFind x.gh.outMsgs msgid.toNat = some o → o.dst ≠ src) → Becomes (.ack src msgid xf status) s x)
    ∧ (∀ o f, mine o f → f.done + 1 < f.expected → Acts (.ack src msgid xf 0) s fun t =>
        t.gh.xfers = [(o.xfer.toNat, { f with done := f.done + 1 })] ∧ tabFind t.gh.outMsgs msgid.toNat = none ∧ t.seqs = x.seqs ∧ t.nocs = x.nocs)
    ∧ (∀ o f, mine o f → f.expected = f.done + 1 → Acts (.ack src msgid xf 0) s (isOver 0 f o (f.done + 1)))
    ∧ (∀ o f, mine o f → status ≠ 0 → Acts (.ack src msgid xf status) s (isOver status.toNat f o f.done))
    ∧ (∀ o f a, tabFind x.gh.outMsgs msgid.toNat = some o → o.ftype = .send ∨ o.ftype = .put → o.expectsAck = true → o.acceptedAt = some a → a + x.gh.ackTmo.toNat ≤ x.now →
        o.dst = src → (src, msgid) ∉ x.gh.expired → x.gh.xfers = [(o.xfer.toNat, f)] → f.status = 0 → Acts (.ack src msgid xf status) s fun t =>
          t.gh.xfers = [] ∧ tabFind t.gh.outMsgs msgid.toNat = none ∧ t.gh.ackLateCnt = satAdd x.gh.ackLateCnt 1 ∧ (src, msgid) ∉ t.gh.expired
            ∧ (Xb.evtEn f.blk = true → (x.seq f.seq).wait = .none → (x.seq f.seq).event (Xb.event f.blk) = (0, 0) →
                (t.seq f.seq).event (Xb.event f.blk) = (1, evStatus 2 0x21 o.xfer.toNat f.done))
            ∧ t.dps = x.dps ∧ t.ctxs = x.ctxs ∧ x.NocsStand t)
    ∧ (∀ epoch, tabFind x.gh.outMsgs msgid.toNat = none → tabFind x.gh.outMsgs (65536 + msgid.toNat) = none → Acts (.nack src msgid xf status epoch) s fun t =>
        t.gh.nackRxCnt = satAdd x.gh.nackRxCnt 1
          ∧ (newer16 epoch (x.roleOf src) = true → bitOf x.mb.keeperUp 0 = true → bitOf x.mb.halted 0 = false → t.roleOf src = epoch)
          ∧ (newer16 epoch (x.roleOf src) = false → t.gh.roles = x.gh.roles)
          ∧ (∀ i, i ≠ src → t.roleOf i = x.roleOf i) ∧ t.dps = x.dps ∧ t.seqs = x.seqs ∧ t.ctxs = x.ctxs)
    ∧ (∀ o f epoch, mine o f → status ≠ 0 → newer16 epoch (x.roleOf src) = false → Acts (.nack src msgid xf status epoch) s (isOver status.toNat f o f.done))

/-! ## Tether reduction -/

/-- R169, R173, R185, R188, R190, R259, R260: a chunk of the open context of its group asks for its Larder buffer and joins the context; one of
another SEQ is counted late, one of a chunk under replay discarded, one with a malformed header counted bad; with no context open the manager
hears of a stall. Neither touches any other context. Of messages whose flits are all in.
R78, R93, R173, R174: the hop of one unit: at the larger of the two units where every sum lies in range, else doubled while below 8 times
this member's u0, and beyond that with markers and POISON; COUNT, EXACT and the flags of the sum.
R171, R175, R187, R188, R189, R190, R252, R258: once the buffer of an arrived row is granted, the row meets the contribution, and the sum asks for the
buffer in which it goes to the next member of the rack ring, or, where the stage ends and there is one rack group, is finished in RFMT: it is delivered here
and goes round its rack, or waits for BCAST. A result is written unit by unit at its destination; the answer of its last write counts the
chunk delivered, and the last chunk sends DELIVERED. For a Larder on which nothing else waits. Corners of a context are log entry 30's reading; what
K1 writes for an error goes out as log entry 5 has it. -/
def Obligations.TetherArrivals : Prop :=
  (∀ (m : ChunkMsg) (c : Instr) (s : State), s.part.Calm → c = .tetherChunkArrive m .clean .clean ∨ c = .tetherBroadcastArrive m .clean .clean →
    let x := s.part
    let h := m.hdr
    let n := Ch.chunk h
    x.findAsm m.lg.val m.src m.msgid = none → m.dst = x.ownId →
    (∀ k y f, x.ctxFor 0 (Ch.group h) = some (k, y) → x.ctxOf 0 k = some y → Fmt.ofCode (Ch.fmt h) = some f →
      let w := Tb.hopWs y.blk
      let us := readUnits f.width 128 (Ch.nunits h) m.body
      let named : Prop := Ch.reservedSet h = false ∧ phaseFmt y.blk (Ch.phase h) f = true
      let whole : Prop := Ch.nunits h = Tb.unitsOf y.blk n ∧ m.body.length = chunkBytes f (Ch.nunits h) ∧ n < Tb.chunks y.blk
      (named → whole → Ch.seq h = Tb.seq y.blk → (y.chunk n).replay ≠ .prepped → x.granted x.nextId = false →
        (∀ u ∈ us, u.led.malformed f (some y.se.cls.toNat) = false) → Acts c s fun t =>
          x.CtxBecame t k (some { y with ins := y.ins ++ [⟨m.lg.val, h, ⟨Ch.boundExt h, Ch.startTaken h, Ch.hops h, f, us, some x.nextId, x.now⟩, x.nextId⟩] })
            ∧ x.Asked t (64 + w) (y.chunkCredits (Ch.phase h) f) ∧ x.UnitsStand t ∧ x.TwinTold t ∧ t.groups = x.groups ∧ t.wss = x.wss)
      ∧ (named → Ch.seq h ≠ Tb.seq y.blk → Acts c s fun t =>
          t.ws w = { x.ws w with tetherLate := satAdd (x.ws w).tetherLate 1 } ∧ (∀ j, j ≠ w → t.ws j = x.ws j)
            ∧ t.ctxs = x.ctxs ∧ t.larder = x.larder ∧ x.UnitsStand t)
      ∧ (named → whole → Ch.seq h = Tb.seq y.blk → (y.chunk n).replay = .prepped → Acts c s fun t =>
          t.ws w = { x.ws w with replayDiscard := satAdd (x.ws w).replayDiscard 1 } ∧ (∀ j, j ≠ w → t.ws j = x.ws j)
            ∧ t.ctxs = x.ctxs ∧ t.larder = x.larder ∧ x.UnitsStand t)
      ∧ (¬ named ∨ Ch.seq h = Tb.seq y.blk ∧ ¬ whole → (∀ g, x.group (Ch.group h) = some g → ∃ l, x.Reaches g.mgrId l) → Acts c s fun t =>
          t.ws w = { x.ws w with tetherBad := satAdd (x.ws w).tetherBad 1 } ∧ (∀ j, j ≠ w → t.ws j = x.ws j)
            ∧ t.ctxs = x.ctxs ∧ t.larder = x.larder))
    ∧ (∀ g l f, x.ctxFor 0 (Ch.group h) = none → Ch.reservedSet h = false → Fmt.ofCode (Ch.fmt h) = some f → anyPhaseFmt (Ch.phase h) f = true →
        x.mb.parked = false → x.group (Ch.group h) = some g → g.closedSeq = none → x.Reaches g.mgrId l → Acts c s fun t =>
          x.Told t l (x.reportOf g 0x10 (Ch.group h) (Ch.seq h) n ((g.img.rankOf x.ownId).getD 0) 5)
            ∧ t.group (Ch.group h) = some { g with reportAt := if g.reportAt.isNone then some x.now else g.reportAt }
            ∧ t.ctxs = x.ctxs ∧ t.larder = x.larder ∧ x.UnitsStand t))
  ∧ (∀ (key : W64) (i0 rank : Nat) (e0 : Int) (a b : RsUnit),
    let u := hopUnit key i0 rank e0 a b
    let x48 := a.led.exact || b.led.exact || decide (4096 ≤ rank)
    let c : RunCfg := { x48 := x48, key := key, h := rank, i0 := i0 }
    let e1 := max a.ue b.ue
    let fits (e : Int) : Bool := (hopAt c e a b).all (inRange (maxMant x48))
    let flags : Bool := a.led.poison || b.led.poison || decide (a.led.rotated ≠ b.led.rotated ∨ a.led.smoothed ≠ b.led.smoothed ∨ a.led.epoch ≠ b.led.epoch)
    u.led.count = a.led.count + b.led.count ∧ u.led.exact = x48 ∧ u.led.zp = 0 ∧ u.led.scale = unitScale u.ue ∧ u.led.clipped = (a.led.clipped || b.led.clipped)
      ∧ u.led.absent = (a.led.absent || b.led.absent) ∧ u.led.rotated = (a.led.rotated || b.led.rotated) ∧ u.led.smoothed = (a.led.smoothed || b.led.smoothed)
      ∧ u.led.wide = false ∧ u.led.misfit = false ∧ u.led.epoch = a.led.epoch
      ∧ (fits e1 = true → u.ue = e1 ∧ u.els = hopAt c e1 a b ∧ u.led.poison = flags)
      ∧ (fits e1 = false → e1 < e0 + 3 → fits (e1 + 1) = true → u.ue = e1 + 1 ∧ u.els = hopAt c (e1 + 1) a b ∧ u.led.poison = flags)
      ∧ (fits e1 = false → e0 + 3 ≤ e1 → u.ue = e1 ∧ u.els = (hopAt c e1 a b).map (toMarker (maxMant x48)) ∧ u.led.poison = true)
      ∧ (∀ (i : Nat) (p q : Int), a.els[i]? = some (RsEl.fin p) → b.els[i]? = some (RsEl.fin q) →
          let v := Q.add (Q.mul (Q.ofInt p) (Q.pow2 (a.ue - e1))) (Q.mul (Q.ofInt q) (Q.pow2 (b.ue - e1)))
          (hopAt c e1 a b)[i]? = some (RsEl.fin (if v.den = 1 then v.num else if x48 then Q.rne v else srRound key ((i0 + i) % 2 ^ 40) rank v)))
      ∧ (∀ (i : Nat) (p : Int), a.els[i]? = some RsEl.pinf → (b.els[i]? = some (RsEl.fin p) ∨ b.els[i]? = some RsEl.pinf → (hopAt c e1 a b)[i]? = some RsEl.pinf)
          ∧ (b.els[i]? = some RsEl.ninf ∨ b.els[i]? = some RsEl.nan → (hopAt c e1 a b)[i]? = some RsEl.nan)))
  ∧ (∀ (k : Nat) (y : Ctx) (g : GroupImage) (s : State), s.part.Calm →
    let x := s.part
    let w := Tb.hopWs y.blk
    let wait : Prop := x.larder.queue = [] ∧ x.ssu.lodges = [] ∧ x.gh.landings = [] ∧ x.gh.lgs = [] ∧ x.twinCtxs = [] ∧ x.granted x.nextId = false
      ∧ ∀ q < 9, (x.seq q).loading = none
    wait → x.ctxs = [(k, y)] → y.opening = false → y.role = .member → x.tableOf y = some g →
    (∀ i us t0 h dst, y.ins = [i] → y.outs = [] → x.granted i.need = true → Ch.phase i.hdr = 0 →
      let n := Ch.chunk i.hdr
      let a := i.row
      (y.chunk n).replay = .running → (y.chunk n).hopDone = false → (y.chunk n).held = none → (y.chunk n).startAt = none → (y.chunk n).stallAt = none →
      y.isStart n = false → (y.chunk n).contrib = some us → (y.chunk n).contribAt = some t0 → t0 < a.arrived + Tb.budget y.blk * 1000 →
      y.rackNext g (a.hops + 1) = (h, dst) →
      let sums := (a.units.zipIdx.map fun u =>
        hopUnit y.se.key (y.i0 (n * Tb.uc y.blk + u.2)) (Tb.rank y.blk) y.exp0 (RsUnit.ofUnit a.fmt u.1) (us.getD u.2 y.emptyUnit))
      let out := if a.hops + 1 < h then sums.map setAbsent else sums
      let ext : Bool := decide (4096 ≤ Tb.rank y.blk) && sums.any fun u => u.led.exact
      let did (z : Ctx) : Prop := (z.chunk n).hopDone = true ∧ (z.chunk n).held = none ∧ z.ins = [] ∧ ∀ m, m ≠ n → z.chunk m = y.chunk m
      (∀ d, dst = some d → Acts .larderGrant s fun t =>
        (∃ z o, t.ctxOf 0 k = some z ∧ did z ∧ (z.chunk n).stallAt = some x.now ∧ z.outs = [o] ∧ o.chunk = n ∧ o.phase = 0 ∧ o.dst = some d ∧ o.hops = h
          ∧ o.fmt = runFmt (out.any fun u => u.led.exact) ∧ o.boundExt = (a.boundExt || ext) ∧ o.startTaken = a.startTaken ∧ o.units = out.map RsUnit.toUnit
          ∧ o.rel = a.buf ∧ o.owned = true ∧ o.need = x.nextId)
          ∧ x.Asked t 72 64 ∧ t.dps = x.dps ∧ t.seqs = x.seqs)
      ∧ (∀ f, dst = none → Tb.hsize y.blk = 0 → (y.chunk n).late = false → Fmt.ofCode (Tb.rfmt y.blk) = some f → Acts .larderGrant s fun t =>
        let f' := if f.isRun then runFmt (out.any fun u => u.led.exact) else f
        let row : RowSet := ⟨a.boundExt || ext, a.startTaken, 0, f', out.map y.resultUnit, some x.nextId, x.now⟩
        (∃ z, t.ctxOf 0 k = some z ∧ did z ∧ (z.chunk n).finished = some row
          ∧ ((Tb.bhold y.blk = true ∧ y.bcast = false) → (z.chunk n).bcastHeld = true ∧ z.outs = [])
          ∧ (Tb.bhold y.blk = false ∨ y.bcast = true → (z.chunk n).bcastHeld = false
              ∧ (∃ o ∈ z.outs, o.dst = none ∧ o.chunk = n ∧ o.units = row.units ∧ o.fmt = f' ∧ o.need = x.nextId)
              ∧ ∀ d, (y.rackNext g 1).2 = some d → ∃ o ∈ z.outs, o.dst = some d ∧ o.chunk = n ∧ o.phase = 3 ∧ o.hops = (y.rackNext g 1).1
                  ∧ o.units = passDead 1 (y.rackNext g 1).1 row.units))
          ∧ x.Asked t 72 ((16 + Tb.uc y.blk * (8 + 16 * f'.width) + 1023) / 1024)))
    ∧ (∀ o, y.ins = [] → y.outs = [o] → x.granted o.need = true → o.dst = none → o.rel = none → (x.noc w).reqCr = 0 →
        let n := o.chunk
        let d := (Fmt.ofCode (Tb.dfmt y.blk)).getD .fp32
        let vals := o.units.map (resultVals o.fmt)
        let place (i : Nat) : Nat := Tb.dest y.blk + (n * Tb.uc y.blk + i) * Tb.dpitch y.blk * 64
        let inv (u : LUnit) (i : Nat) : InvOut :=
          let n' := n * Tb.uc y.blk + i
          let c0 := 128 * (n' % y.se.tiles)
          inverseVals y.se y.signs (smoothVals (Tb.stream y.blk) y.se c0 128) c0 (Tb.avg y.blk) (y.otherHalf vals n' i) u.led (vals.getD i [])
        let reqs := (o.units.zipIdx.map fun u => writeReqs (place u.2) (wideRow d (inv u.1 u.2).poison (inv u.1 u.2).vals) (.deliver 0 k n)).flatten
        Acts .larderGrant s fun t =>
          (t.noc w).waiting = (x.noc w).waiting ++ reqs ∧ (∀ m, m ≠ w → t.noc m = x.noc m)
            ∧ (∃ z, t.ctxOf 0 k = some z ∧ z.outs = [] ∧ (z.chunk n).due = (y.chunk n).due + reqs.length
                ∧ bitOf z.status 1 = (bitOf y.status 1 || o.boundExt) ∧ bitOf z.status 2 = (bitOf y.status 2 || o.units.any fun u => u.led.absent)
                ∧ bitOf z.status 3 = (bitOf y.status 3 || o.units.any fun u => u.led.poison) ∧ bitOf z.status 6 = (bitOf y.status 6 || o.startTaken)
                ∧ ∀ m, m ≠ n → z.chunk m = y.chunk m)
            ∧ t.ssu = (x.ledgerErr ((o.units.zipIdx.filter fun u => (inv u.1 u.2).ledgerErr).length)).ssu ∧ t.dps = x.dps ∧ t.seqs = x.seqs))
  ∧ (∀ (p : Fin 10) (tag : Byte) (err : BitVec 2) (k n off len kk : Nat) (data : List Byte) (y : Ctx) (s : State), s.part.Calm →
    let x := s.part
    tabFind (x.noc p.val).openReqs tag.toNat = some (⟨true, off, len, data, .deliver 0 k n, []⟩, kk) → (x.noc p.val).waiting = [] → x.ctxOf 0 k = some y →
    y.role = .member → y.doneSent = false → (y.chunk n).delBuf = none →
    ((y.chunk n).due = 1 → Acts (.nocWriteResponse p tag err) s fun t => ∃ z, t.ctxOf 0 k = some z ∧ (z.chunk n).due = 0 ∧ (z.chunk n).delivered = true
        ∧ z.deliveredCnt = (if (y.chunk n).counted then y.deliveredCnt else y.deliveredCnt + 1) ∧ z.doneSent = z.allDone ∧ bitOf z.status 0 = (bitOf y.status 0 || z.allDone)
        ∧ (∀ m, m ≠ n → z.chunk m = y.chunk m) ∧ t.dps = x.dps ∧ t.seqs = x.seqs
        ∧ (∀ r l, x.group (Tb.group y.blk) = some r → z.allDone = true → x.Reaches r.mgrId l →
            x.Told t l (x.reportOf r 0x16 (Tb.group y.blk) (Tb.seq y.blk) 0 (Tb.rank y.blk) 0)))
    ∧ (2 ≤ (y.chunk n).due → Acts (.nocWriteResponse p tag err) s fun t =>
        x.CtxBecame t k (some (y.onChunk n fun c => { c with due := c.due - 1 })) ∧ t.dps = x.dps ∧ t.seqs = x.seqs))

/-- R172, R185, R190, R284: the oldest deposit of a Waystation enters its context: each of its units joins the exact sum of its unit, and with
the last one the contribution is complete and the stall window opens; the copy it entered from stays as the accumulator, the other goes back
(R135); of a context that is gone, the deposit's buffers are given back. Where an uncorrectable error strikes a record or a unit's elements, that
unit is poisoned (R284), and the error counts, with a deposit there or none. Of deposits of contexts with one deposit a unit, where the next
hop is not to be done here yet.
R172, R190: with DEP_EXP above 1 the deposit first asks for its accumulator's credits and waits for them; then its unit joins the sum that the
Waystation holds, and both its copies go back.
R172, R185: a unit at or beyond NUNITS, one that has had its DEP_EXP deposits, and one of a chunk that the member has let pass, adds nothing, is
counted late, the last of them once a chunk, and gives its buffers back.
R172: the exact sum of two units of one value each, at the smaller of their units. -/
def Obligations.TetherDeposits : Prop :=
  (∀ (w : Fin 8) (err : ChunkErr) (lerr : LarderErr) (s : State), s.part.Calm →
    let x := s.part
    let c : Instr := .tetherDeposit ⟨w, err, lerr⟩
    let errs (t : Part) : Prop :=
      t.larder.ueCnt = (if lerr.isUe then satAdd x.larder.ueCnt 1 else x.larder.ueCnt) ∧ t.larder.ueSeen = (x.larder.ueSeen || lerr.isUe)
        ∧ t.larder.ceCnt = (if lerr = .corrected then satAdd x.larder.ceCnt 1 else x.larder.ceCnt)
    let back (b : Option Nat) (t : Part) : Prop := ∀ i, b = some i → t.granted i = false
    let read (i : Nat) (u : LUnit) : LUnit :=
      if err = .record i then { u with led := { u.led with scale := 0x3F80, count := 0, poison := true, absent := true } }
      else if err = .elements i then { u with led := { u.led with poison := true } } else u
    ((x.ws w.val).deposits = [] → Acts c s fun t => errs t ∧ t.wss = x.wss ∧ t.ctxs = x.ctxs ∧ x.UnitsStand t)
    ∧ (∀ d rest, (x.ws w.val).deposits = d :: rest →
      let copy (us : List LUnit) : List LUnit := us.zipIdx.map fun u => read u.2 u.1
      let d' : Deposit := if d.misfit then { d with keep := copy d.keep } else { d with units := copy d.units }
      let num (i : Nat) : Nat := (d.rowblk * 128 + i) * d.tiles + d.tile
      let dep (y : Ctx) (i : Nat) : Option UnitDep := tabFind (y.chunk (num i / Tb.uc y.blk)).deps (num i)
      (x.ctxOf 0 d.ctx = none → Acts c s fun t =>
        (t.ws w.val).deposits = rest ∧ errs t ∧ back d.buf t ∧ back d.keepBuf t ∧ t.ctxs = x.ctxs ∧ x.UnitsStand t)
      ∧ (∀ y, x.ctxOf 0 d.ctx = some y → y.role = .member → Tb.depExp y.blk = 1 → x.tableOf y = none → d.units ≠ [] → 0 < d.tiles →
        (∀ k, (y.chunk k).held = none) →
        (∀ i, i < d.units.length → num i < Tb.nunits y.blk ∧ dep y i = none ∧ (y.chunk (num i / Tb.uc y.blk)).absent = false) →
        Acts c s fun t =>
          (t.ws w.val).deposits = rest ∧ errs t
            ∧ (∃ z, t.ctxOf 0 d.ctx = some z ∧ z.blk = y.blk ∧ z.ins = y.ins ∧ z.outs = y.outs
              ∧ (∀ i, i < d.units.length → (z.chunk (num i / Tb.uc y.blk)).depBufs
                  = (if d.misfit then d.keepBuf else d.buf).toList ++ (y.chunk (num i / Tb.uc y.blk)).depBufs)
              ∧ (∀ i u, d'.units[i]? = some u → dep z i = some (UnitDep.add none w.val y.se.epoch (y.enter d' (num i) i u)))
              ∧ (∀ u, d'.units = [u] → Tb.nunits y.blk = 1 → (y.chunk 0).contrib = none → (y.chunk 0).delivered = false → (y.chunk 0).finished = none →
                  (z.chunk 0).contrib = some [(UnitDep.add none w.val y.se.epoch (y.enter d' 0 0 u)).total y] ∧ (z.chunk 0).stallAt = some x.now))
            ∧ back (if d.misfit then d.buf else d.keepBuf) t
            ∧ (∀ j, j ≠ d.ctx → t.ctxOf 0 j = x.ctxOf 0 j) ∧ x.UnitsStand t ∧ t.groups = x.groups)
      ∧ (∀ y u, x.ctxOf 0 d.ctx = some y → y.role = .member → 2 ≤ Tb.depExp y.blk → d.units = [u] → 0 < d.tiles → num 0 < Tb.nunits y.blk →
        let k := num 0 / Tb.uc y.blk
        let u' := d'.units.getD 0 u
        (y.chunk k).absent = false → (∀ v, dep y 0 = some v → v.count < Tb.depExp y.blk) →
        (tabFind (y.chunk k).accs w.val = none → x.granted x.nextId = false → Acts c s fun t =>
          (t.ws w.val).deposits = d' :: rest ∧ errs t
            ∧ (∃ z, x.CtxBecame t d.ctx (some z) ∧ tabFind (z.chunk k).accs w.val = some x.nextId ∧ dep z 0 = dep y 0 ∧ z.blk = y.blk)
            ∧ x.Asked t (64 + w.val) ((Tb.uc y.blk * (if y.x48 then 776 else 520) + 1023) / 1024) ∧ x.UnitsStand t)
        ∧ (∀ b, tabFind (y.chunk k).accs w.val = some b → x.granted b = true → x.tableOf y = none → some b ≠ d.buf → some b ≠ d.keepBuf → Acts c s fun t =>
          (t.ws w.val).deposits = rest ∧ errs t ∧ back d.buf t ∧ back d.keepBuf t
            ∧ (∃ z, t.ctxOf 0 d.ctx = some z ∧ dep z 0 = some (UnitDep.add (dep y 0) w.val y.se.epoch (y.enter d' (num 0) 0 u'))
                ∧ (z.chunk k).accs = (y.chunk k).accs ∧ z.blk = y.blk)
            ∧ (∀ j, j ≠ d.ctx → t.ctxOf 0 j = x.ctxOf 0 j) ∧ x.UnitsStand t))
      ∧ (∀ y u, x.ctxOf 0 d.ctx = some y → d.units = [u] → 0 < d.tiles → x.tableOf y = none →
        let k := num 0 / Tb.uc y.blk
        let counted (n : Nat) (t : Part) : Prop :=
          t.ws w.val = { x.ws w.val with deposits := rest, tetherLate := satAdd (x.ws w.val).tetherLate n } ∧ errs t ∧ back d.buf t ∧ back d.keepBuf t
            ∧ (∃ z, t.ctxOf 0 d.ctx = some z ∧ z.blk = y.blk ∧ (∀ n, (z.chunk n).deps = (y.chunk n).deps))
            ∧ (∀ j, j ≠ d.ctx → t.ctxOf 0 j = x.ctxOf 0 j) ∧ x.UnitsStand t
        (Tb.nunits y.blk ≤ num 0 → Acts c s (counted 1))
        ∧ (num 0 < Tb.nunits y.blk → y.role = .member → (y.chunk k).absent = false → (∃ v, dep y 0 = some v ∧ Tb.depExp y.blk ≤ v.count) →
            (y.chunk k).contrib.isSome = true → Acts c s (counted 1))
        ∧ (num 0 < Tb.nunits y.blk → (y.role ≠ .member ∨ (y.chunk k).absent = true) → (y.chunk k).late = false → x.group (Tb.group y.blk) = none → Acts c s fun t =>
            counted 1 t ∧ ∀ z, t.ctxOf 0 d.ctx = some z → (z.chunk k).late = true ∧ bitOf z.status 5 = true)
        ∧ (num 0 < Tb.nunits y.blk → (y.role ≠ .member ∨ (y.chunk k).absent = true) → (y.chunk k).late = true → Acts c s (counted 0)))))
  ∧ (∀ (y : UnitDep) (w : Nat) (epoch : W16) (u a : RsUnit), tabFind y.sums w = some a →
    let z := UnitDep.add (some y) w epoch u
    let e := min a.ue u.ue
    let bad := decide (u.led.epoch ≠ epoch) || decide (u.led.rotated ≠ y.first.rotated) || decide (u.led.smoothed ≠ y.first.smoothed)
    z.count = y.count + 1 ∧ z.first = y.first
      ∧ ∃ b, tabFind z.sums w = some b ∧ b.ue = e
        ∧ (a.led.epoch = epoch → a.led.rotated = y.first.rotated → a.led.smoothed = y.first.smoothed → b.led.poison = (a.led.poison || u.led.poison || bad))
        ∧ ∀ (i : Nat) (p r : Int), a.els[i]? = some (RsEl.fin p) → u.els[i]? = some (RsEl.fin r) →
            b.els[i]? = some (RsEl.fin (p * 2 ^ (a.ue - e).toNat + r * 2 ^ (u.ue - e).toNat)))

/-- R137, R175, R183, R184, R186, R259, R262, R263: when a member's hop budget ends, the running row it holds goes on to the next live member
with one more hop and every unit ABSENT, and the manager gets a DROP; when its start window ends, the successor starts the chunk itself with
START_TAKEN and the hops of the positions passed over, unless the row's header came before the end, that of the hall in a failed twin's context too (log entry 32); when its stall window ends, the manager gets a STALL of cause 7. Before the end, or
with nothing held, nothing happens. A start whose sum lies beyond the format is log entry 13's reading, and the firmware's writes are as log entry 5
has them. -/
def Obligations.TetherWindows : Prop :=
  (∀ (c : Fin 64) (n : Nat) (y : Ctx) (s : State), s.part.Calm → s.part.ctxOf 0 c.val = some y → s.part.ctxOf 1 c.val = none →
    let x := s.part
    let ch := y.chunk n
    let budget := Tb.budget y.blk * 1000
    let next (z : Ctx) (t : Part) : Prop := x.CtxBecame t c.val (some z) ∧ x.Asked t 72 64 ∧ x.UnitsStand t
    let row (phase : Nat) (d : FabId) (hops : Nat) (be st : Bool) (us : List RsUnit) (rel : Option Nat) : OutRow :=
      { mkOut n phase d hops (runFmt (us.any fun u => u.led.exact)) be st (us.map RsUnit.toUnit) rel with need := x.nextId }
    let gone (us : List RsUnit) : List RsUnit := us.map setAbsent
    (∀ a g gr l h d, ch.held = some a → ch.hopDone = false → y.role = .member → a.arrived + budget ≤ x.now →
        (∀ r ∈ x.larder.queue, r.id ∉ ch.accs.map Prod.snd ∧ r.id ∉ ch.depBufs) →
        x.group (Tb.group y.blk) = some gr → gr.img = g → x.Reaches gr.mgrId l → y.rackNext g (a.hops + 1) = (h, some d) →
        Acts (.hopBudgetExpiry c n) s fun t =>
          next { (y.onChunk n fun k => { k with hopDone := true, held := none, absent := true, deps := [], accs := [], depBufs := [] }) with
                 outs := y.outs ++ [row 0 d h a.boundExt a.startTaken (gone (a.units.map (RsUnit.ofUnit a.fmt))) a.buf] } t
            ∧ x.Told t l (x.reportOf gr 0x22 (Tb.group y.blk) (Tb.seq y.blk) 0 (Tb.rank y.blk) 1))
    ∧ (∀ a g gr l h d, ch.held = none → ch.heldHall = some a → ch.hallDone = false → a.arrived + budget ≤ x.now →
        x.group (Tb.group y.blk) = some gr → gr.img = g → x.Reaches gr.mgrId l → y.hallNext g n (a.hops + 1) = (h, some d) →
        Acts (.hopBudgetExpiry c n) s fun t =>
          next { (y.onChunk n fun k => { k with hallDone := true, heldHall := none }) with
                 outs := y.outs ++ [row 1 d h a.boundExt a.startTaken (gone (a.units.map (RsUnit.ofUnit a.fmt))) a.buf] } t
            ∧ x.Told t l (x.reportOf gr 0x22 (Tb.group y.blk) (Tb.seq y.blk) 0 (Tb.rank y.blk) 1))
    ∧ (ch.held = none → ch.heldHall = none → Becomes (.hopBudgetExpiry c n) s x)
    ∧ (∀ a, ch.held = some a → x.now < a.arrived + budget → Becomes (.hopBudgetExpiry c n) s x)
    ∧ (∀ t0 g us h d, ch.startAt = some t0 → t0 + budget ≤ x.now → x.tableOf y = some g → ch.hopDone = false → ch.held = none → y.isSuccessor g n = true →
        y.contribution n = some us → Tb.rank y.blk < 4096 → x.rowComing 0 c.val n 0 = none →
        y.rackNext g ((Tb.rpos y.blk + (Tb.rsize y.blk + 1) - n % (Tb.rsize y.blk + 1)) % (Tb.rsize y.blk + 1) + 1) = (h, some d) →
        Acts (.startWindowExpiry c n) s fun t =>
          next { (y.onChunk n fun k => { k with hopDone := true, startAt := none, go := false, absent := false }) with
                 outs := y.outs ++ [row 0 d h false true (gone (us.zipIdx.map fun u => y.fit (n * Tb.uc y.blk + u.2) u.1)) none] } t)
    ∧ (∀ t0 g r h d, ch.startAt = some t0 → t0 + budget ≤ x.now → x.tableOf y = some g → ch.hopDone = true → ch.rackRow = some r → ch.hallDone = false →
        ch.heldHall = none → y.isHallSuccessor g n = true → x.rowComing 0 c.val n 1 = none →
        y.hallNext g n ((Tb.hpos y.blk + (Tb.hsize y.blk + 1) - n % (Tb.hsize y.blk + 1)) % (Tb.hsize y.blk + 1) + 1) = (h, some d) →
        Acts (.startWindowExpiry c n) s fun t =>
          next { (y.onChunk n fun k => { k with hallDone := true, startAt := none }) with
                 outs := y.outs ++ [row 1 d h r.boundExt true (gone (r.units.map (RsUnit.ofUnit r.fmt))) none] } t)
    ∧ (∀ t0 g a, ch.startAt = some t0 → t0 + budget ≤ x.now → x.tableOf y = some g → ch.hopDone = false → ch.held = none → y.isSuccessor g n = true →
        x.rowComing 0 c.val n 0 = some a → a < t0 + budget → Acts (.startWindowExpiry c n) s fun t =>
          x.CtxBecame t c.val (some (y.onChunk n fun k => { k with startAt := none })) ∧ t.larder = x.larder ∧ x.UnitsStand t)
    ∧ ((∀ t0, ch.startAt = some t0 → x.now < t0 + budget) → Becomes (.startWindowExpiry c n) s x)
    ∧ (∀ t0 gr l, ch.stallAt = some t0 → t0 + (x.ws (Tb.hopWs y.blk)).stallTmo.toNat ≤ x.now → x.group (Tb.group y.blk) = some gr → x.Reaches gr.mgrId l →
        Acts (.stallWindowExpiry c n) s fun t =>
          x.Told t l (x.reportOf gr 0x10 (Tb.group y.blk) (Tb.seq y.blk) n (Tb.rank y.blk) 7)
            ∧ x.CtxBecame t c.val (some (y.onChunk n fun k => { k with stallAt := none })) ∧ t.larder = x.larder ∧ x.UnitsStand t
            ∧ t.group (Tb.group y.blk) = some { gr with reportAt := if gr.reportAt.isNone then some x.now else gr.reportAt })
    ∧ ((∀ t0, ch.stallAt = some t0 → x.now < t0 + (x.ws (Tb.hopWs y.blk)).stallTmo.toNat) → Becomes (.stallWindowExpiry c n) s x))
  ∧ (∀ (c : Fin 64) (n : Nat) (y : Ctx) (t0 : Nat) (g : GroupImage) (r : RowSet) (h : Nat) (d : FabId) (s : State),
    s.part.Calm → s.part.ctxOf 1 c.val = some y → s.part.ctxOf 0 c.val = none →
    let x := s.part
    let ch := y.chunk n
    ch.startAt = some t0 → t0 + Tb.budget y.blk * 1000 ≤ x.now → x.tableOf y = some g → ch.hopDone = true → ch.rackRow = some r → ch.hallDone = false →
    ch.heldHall = none → y.isHallSuccessor g n = true → x.rowComing 1 c.val n 1 = none →
    y.hallNext g n ((Tb.hpos y.blk + (Tb.hsize y.blk + 1) - n % (Tb.hsize y.blk + 1)) % (Tb.hsize y.blk + 1) + 1) = (h, some d) →
    Acts (.startWindowExpiry c n) s fun t =>
      (∃ z o, t.ctxOf 1 c.val = some z ∧ (z.chunk n).hallDone = true ∧ (z.chunk n).startAt = none ∧ z.outs = y.outs ++ [o] ∧ o.chunk = n ∧ o.phase = 1
        ∧ o.dst = some d ∧ o.hops = h ∧ o.startTaken = true ∧ o.boundExt = r.boundExt
        ∧ o.units = (r.units.map fun u => (setAbsent (RsUnit.ofUnit r.fmt u)).toUnit))
        ∧ x.Asked t 72 64 ∧ t.ctxs = x.ctxs ∧ x.UnitsStand t)

/-- R166, R167, R226, R240, R249 to R252: TETHER OPEN of a good block at a free number makes an opening context and waits for K0; a bad block, or a
number that a program has open, fails at once with its reason in the event. When K0 has checked, the context is in service, or gone with reason
4 or 5; the sequencer goes on. TETHER CLOSE ends a context with ABORTED. BCAST sends what a context holds back, as its buffers are granted. None of the three runs on the
Gatehouse's sequencer. The order of the fault checks and the unchecked fields of CLOSE are log entry 33's reading, the order of the reasons 3, 4 and
5 log entry 30's; PARTSRC 1 with DEP_EXP 1 to 8 is refused by the choice of log entry 50.
R132, R167: the unit that K0's check fixes: the exponent as written under EXP_SRC 0, else the smallest power of two not below A × 2^G / 32,766 (2^(G − 20)
for X48) within [−126, 127], A of the calibration entry or of the frozen Envelope; the written one again where the entry fails its checks,
which counts, where the Envelope is empty and where A is 0. -/
def Obligations.TetherInstructions : Prop :=
  (∀ (q : Fin 9) (w : W64) (s : State), s.part.Calm → s.part.NoFence →
    let x := s.part
    let y := x.seq q.val
    let reads (opc op lo : Nat) : Prop := x.Issues q.val w ∧ IW.opc w = opc ∧ (opc = 0x10 → fld w 18 2 = op) ∧ fld w lo (64 - lo) = 0
    let told (ev : Nat) (v : W64) (t : Part) : Prop := (y.event ev).1 = 0#8 → (y.event ev).2 = 0 → (t.seq q.val).event ev = (1, v)
    let goes (t : Part) : Prop := (t.seq q.val).st = 1#3 ∧ (t.seq q.val).pc = y.pc + 1 ∧ (t.seq q.val).regs = y.regs ∧ ∀ n, n ≠ q.val → t.seq n = x.seq n
    (∀ n, reads 0x10 0 50 → q.val < 8 → fld w 26 15 % 8 = 0 → y.block (fld w 26 15) 12 = some n →
      let c := fld w 20 6
      let b := Tb.adjust (BitVec.ofNat 768 n) (y.reg (IW.ga w)) (y.reg (IW.gb w)) (y.reg (IW.gc w))
      let reason := if signsPast (x.stream (Tb.stream b)) (x.stream (Tb.stream b)).tiles then 2 else blockReason b false
      (x.ctxOf 0 c = none → reason = 0 ∨ reason = 5 → Acts (.tetherOpen q .clean) s fun t =>
          (t.seq q.val).st = 2#3 ∧ (t.seq q.val).pc = y.pc ∧ (t.seq q.val).wait = .tetherOpen c ∧ (t.seq q.val).regs = y.regs
            ∧ (∃ z, x.CtxBecame t c (some z) ∧ z.blk = b ∧ z.opening = true ∧ z.owner = some (q.val, BitVec.ofNat 8 (fld w 41 8), bitOf w 49) ∧ z.chunks = []
                ∧ z.se = x.stream (Tb.stream b) ∧ z.failReason = reason)
            ∧ (∀ n, n ≠ q.val → t.seq n = x.seq n) ∧ x.OnlySeqs { t with ctxs := x.ctxs })
      ∧ (x.ctxOf 0 c = none → reason = 2 ∨ reason = 3 → Acts (.tetherOpen q .clean) s fun t =>
          goes t ∧ t.ctxs = x.ctxs ∧ (bitOf w 49 = true → told (fld w 41 8) (evTether 1 c reason 0) t))
      ∧ (∀ z, x.ctxOf 0 c = some z → z.owner ≠ none → Acts (.tetherOpen q .clean) s fun t =>
          goes t ∧ t.ctxs = x.ctxs ∧ (bitOf w 49 = true → told (fld w 41 8) (evTether 1 c 1 0) t)))
    ∧ (∀ (c : Fin 64) z ev en, x.ctxOf 0 c.val = some z → z.opening = true → z.owner = some (q.val, ev, en) → x.mb.runs 0 = true → y.wait = .tetherOpen c.val →
        let cal := tabGet x.ssu.cal ((z.se.calBase.toNat + Tb.calidx z.blk) % 65536) 0
        let env := x.env (Tb.stream z.blk)
        let usable : Prop := Cal.usable cal z.se = true ∧ (Fmt.ofCode (Cal.fmt cal)).any Fmt.isLedger = true
        let g : Int := (Tb.grow z.blk : Int) - (if Tb.fmt z.blk = 0x1D then 20 else 0)
        let least (a : Q) (e : Int) : Prop :=
          let v := Q.div (Q.mul a (Q.pow2 g)) ⟨32766, 1⟩
          e ≤ 127 ∧ -126 ≤ e ∧ (e < 127 → Q.le v (Q.pow2 e) = true) ∧ (-126 < e → Q.le v (Q.pow2 (e - 1)) = false)
        let made (t : Part) (P : Int → Prop) : Prop :=
          goes t ∧ (∃ u, x.CtxBecame t c.val (some u) ∧ u.opening = false ∧ u.role = .member ∧ P u.exp0 ∧ Tb.exp0 u.blk = u.exp0 ∧ u.owner = z.owner ∧ u.chunks = []
              ∧ Tb.group u.blk = Tb.group z.blk ∧ u.se = z.se) ∧ t.dps = x.dps ∧ x.NocsStand t
        let fixes (P : Int → Prop) (miss : Bool) : Prop :=
          Acts (.tetherOpenDone c) s fun t => made t P ∧ t.ssu.calMiss = (if miss then satAdd x.ssu.calMiss 1 else x.ssu.calMiss)
        let asWritten (e : Int) : Prop := e = Tb.exp0 z.blk
        (x.tableReason z.blk = false → z.failReason = 0 → z.role = .member → z.chunks = [] → Tb.partSrc z.blk = false →
            (Tb.expSrc z.blk = 0 → fixes asWritten false)
            ∧ (∀ f, Tb.expSrc z.blk = 1 → usable → Fmt.ofCode (Cal.fmt cal) = some f → fixes (least (Q.mul (scaleQ (Cal.scale cal)) f.qmax)) false)
            ∧ (Tb.expSrc z.blk = 1 → ¬ usable → fixes asWritten true)
            ∧ (Tb.expSrc z.blk = 2 →
                let a := Q.mul ⟨16 + z.se.headroom.toNat, 16⟩ (Q.maxQ (bfQ env.eHi) (Q.neg (bfQ env.eLo)))
                (env.ring = [] ∨ Q.isZero a = true → fixes asWritten false) ∧ (env.ring ≠ [] → Q.isZero a = false → fixes (least a) false)))
        ∧ (x.tableReason z.blk = false → z.failReason ≠ 0 → Acts (.tetherOpenDone c) s fun t =>
            goes t ∧ x.CtxBecame t c.val none ∧ (en = true → told ev.toNat (evTether 1 c.val z.failReason 0) t) ∧ t.dps = x.dps ∧ t.nocs = x.nocs)
        ∧ (x.tableReason z.blk = true → Acts (.tetherOpenDone c) s fun t =>
            goes t ∧ x.CtxBecame t c.val none ∧ (en = true → told ev.toNat (evTether 1 c.val 4 0) t) ∧ t.dps = x.dps ∧ t.nocs = x.nocs))
    ∧ (∀ z ev en, reads 0x10 1 26 → fld w 6 12 = 0 → q.val < 8 → x.ctxOf 0 (fld w 20 6) = some z → z.opening = false → z.owner = some (q.val, ev, en) →
        Acts (.tetherClose q) s fun t =>
          goes t ∧ x.CtxBecame t (fld w 20 6) none ∧ (en = true → told ev.toNat (evTether 2 (fld w 20 6) 0 z.status.toNat) t)
            ∧ tabFind t.tetherRegs (fld w 20 6) = some (Tb.hopWs z.blk, z.status, z.deliveredCnt)
            ∧ (∀ g, x.group (Tb.group z.blk) = some g → t.group (Tb.group z.blk) = some { g with closedSeq := some (BitVec.ofNat 16 (Tb.seq z.blk)) })
            ∧ t.dps = x.dps ∧ t.nocs = x.nocs)
    ∧ (reads 0x11 0 24 → fld w 6 12 = 0 → q.val < 8 → x.ctxOf 0 (fld w 18 6) = none → Acts (.bcast q) s fun t => x.GoesOn t q.val ∧ x.OnlySeqs t)
    ∧ (∀ z n k r g, reads 0x11 0 24 → fld w 6 12 = 0 → q.val < 8 → x.ctxOf 0 (fld w 18 6) = some z → z.opening = false → Tb.bhold z.blk = true →
        z.chunks = [(n, k)] → k.bcastHeld = true → k.finished = some r → x.tableOf z = some g →
        x.granted (r.buf.getD 0) = false → (∀ i ∈ z.ins, x.granted i.need = false) → (∀ o ∈ z.outs, x.granted o.need = false) → Acts (.bcast q) s fun t =>
          goes t ∧ (∃ u, x.CtxBecame t (fld w 18 6) (some u) ∧ u.bcast = true ∧ (u.chunk n).bcastHeld = false
            ∧ (∃ o ∈ u.outs, o.dst = none ∧ o.chunk = n ∧ o.units = r.units ∧ o.need = r.buf.getD 0)
            ∧ (∀ d, (z.rackNext g 1).2 = some d → ∃ o ∈ u.outs, o.phase = 3 ∧ o.dst = some d ∧ o.hops = (z.rackNext g 1).1 ∧ o.units = passDead 1 (z.rackNext g 1).1 r.units)
            ∧ (∀ d, (z.hallNext g n 1).2 = some d → ∃ o ∈ u.outs, o.phase = 2 ∧ o.dst = some d ∧ o.hops = (z.hallNext g n 1).1 ∧ o.units = passDead 1 (z.hallNext g n 1).1 r.units)))
    ∧ (q.val = 8 → (reads 0x10 0 50 → Acts (.tetherOpen q .clean) s fun t => (t.seq q.val).st = 4#3 ∧ (t.seq q.val).fcode = 4#8 ∧ t.ctxs = x.ctxs)
        ∧ (reads 0x10 1 26 → fld w 6 12 = 0 → Acts (.tetherClose q) s fun t => (t.seq q.val).st = 4#3 ∧ (t.seq q.val).fcode = 4#8 ∧ t.ctxs = x.ctxs)
        ∧ (reads 0x11 0 24 → fld w 6 12 = 0 → Acts (.bcast q) s fun t => (t.seq q.val).st = 4#3 ∧ (t.seq q.val).fcode = 4#8 ∧ t.ctxs = x.ctxs)))
  ∧ (∀ (b : BitVec 768) (x : Part),
    let two : Prop :=
      Tb.reservedSet b = true ∨ Tb.msize b = 0 ∨ Tb.msize b ≤ Tb.rank b ∨ Tb.rsize b < Tb.rpos b ∨ Tb.hsize b < Tb.hpos b ∨ 8 < Tb.depExp b
        ∨ (Tb.depExp b = 0 ↔ Tb.partSrc b = false) ∨ Tb.budget b = 0 ∨ Tb.nunits b = 0 ∨ Tb.lgMask b = 0 ∨ Tb.expSrc b = 3 ∨ Tb.exp0 b < -126
        ∨ (Tb.fmt b ≠ 0x1C ∧ Tb.fmt b ≠ 0x1D) ∨ Tb.dest b % 64 ≠ 0 ∨ Tb.partOff b % 64 ≠ 0
    let result : Prop := Tb.rfmt b = Tb.fmt b ∨ Tb.rfmt b ∈ ([0, 2, 3, 4, 5, 6, 7, 8, 9, 10] : List Nat)
    (two → blockReason b false = 2) ∧ blockReason b true = 2 ∧ (¬ two → ¬ result → blockReason b false = 3)
      ∧ (¬ two → result → 2 < Tb.dfmt b → blockReason b false = 5) ∧ (¬ two → result → Tb.dfmt b ≤ 2 → blockReason b false = 0)
      ∧ (x.groups.find? (fun g => decide (g.2.slot = Tb.gtab b)) = none → x.tableReason b = true)
      ∧ (∀ n g, x.groups.find? (fun g => decide (g.2.slot = Tb.gtab b)) = some (n, g) →
          let k := (g.img.member (Tb.rank b)).rack.toNat
          (x.tableReason b = false ↔ n = Tb.group b ∧ g.img.members.length = Tb.msize b ∧ g.rank = some (Tb.rank b) ∧ g.courierOnly = false ∧ k = Tb.hpos b
            ∧ (g.img.rack k).getD (Tb.rpos b) 65536 = Tb.rank b ∧ (g.img.rack k).length = Tb.rsize b + 1 ∧ g.img.hMinus1.toNat = Tb.hsize b)))

/-! ## Transfers and conversions as programs open them -/

/-- R235, R244 to R248, R313: OPEN adds its registers to the block and opens the transfer under its number with the messages it will take, PUT
and GET starting on their first tile; a block that R248 refuses completes at once with FORMAT, a destination without a route with
UNROUTABLE; a number still open makes the program wait. The Gatehouse wakes. Towards another instance whose link sleeps.
R23, R90, R97, R111, R208, R214, R246: what of a block is refused with FORMAT, case by case (log entries 29 and 50 read the rows that R248 does not list). -/
def Obligations.TransferOpens : Prop :=
  (∀ (q : Fin 9) (w : W64) (kind : XKind) (n : Nat) (s : State), s.part.Still → s.part.Issues q.val w →
    let x := s.part
    let y := x.seq q.val
    let c : Instr := match kind with | .put => .putOpen q .clean | .get => .getOpen q .clean | .send => .sendOpen q .clean
    let b := Xb.adjust (BitVec.ofNat 512 n) (y.reg (IW.ga w)) (y.reg (IW.gb w)) (y.reg (IW.gc w))
    let e := x.stream (Xb.stream b)
    let goes (t : Part) : Prop := (t.seq q.val).st = 1#3 ∧ (t.seq q.val).pc = y.pc + 1 ∧ (t.seq q.val).regs = y.regs ∧ ∀ m, m ≠ q.val → t.seq m = x.seq m
    let ends (code : Nat) (t : Part) : Prop :=
      goes t ∧ t.gh = x.gh ∧ (Xb.evtEn b = true → y.event (Xb.event b) = (0, 0) → (t.seq q.val).event (Xb.event b) = (1, evXfer code (Xb.xfer b) 0))
        ∧ (Xb.evtEn b = false → (t.seq q.val).events = y.events)
    IW.opc w = (match kind with | .put => 2 | .get => 3 | .send => 4) → bitOf w 18 = false → fld w 34 30 = 0 → fld w 19 15 % 8 = 0 →
    y.block (fld w 19 15) 8 = some n →
    (tabFind x.gh.xfers (Xb.xfer b) = none → xferBad kind b e false = true → Acts c s (ends 5))
    ∧ (tabFind x.gh.xfers (Xb.xfer b) = none → xferBad kind b e false = false → kind ≠ .send → x.answers (addrId (Xb.remote b)) = false →
        x.route (addrId (Xb.remote b)) (Xb.lgmask b) = none → Acts c s (ends 0x20))
    ∧ (tabFind x.gh.xfers (Xb.xfer b) = none → xferBad kind b e false = false → (∀ g, (x.lg g).active = false) → x.gh.outMsgs = [] → x.gh.srcJobs = [] →
        (kind ≠ .send → x.answers (addrId (Xb.remote b)) = false ∧ (x.route (addrId (Xb.remote b)) (Xb.lgmask b)).isSome = true) →
        Acts c s fun t =>
          goes t ∧ t.dps = x.dps ∧ t.ctxs = x.ctxs ∧ (∀ k, k ≠ Xb.xfer b → tabFind t.gh.xfers k = tabFind x.gh.xfers k)
            ∧ (Dom.gh ∈ t.pwr.awake ∨ Dom.gh ∈ t.pwr.waking)
            ∧ ∃ f, tabFind t.gh.xfers (Xb.xfer b) = some f ∧ f.kind = kind ∧ f.blk = b ∧ f.se = e ∧ f.seq = q.val ∧ f.expected = Xb.messages b ∧ f.done = 0
                ∧ f.status = 0 ∧ (0 < Xb.messages b → kind ≠ .send → 0 < f.nextTile))
    ∧ (∀ f, tabFind x.gh.xfers (Xb.xfer b) = some f → Acts c s fun t =>
        (t.seq q.val).st = 2#3 ∧ (t.seq q.val).pc = y.pc ∧ (t.seq q.val).wait = .xfer (Xb.xfer b) false ∧ (t.seq q.val).regs = y.regs
          ∧ x.OnlySeqs t))
  ∧ (∀ (kind : XKind) (b : BitVec 512) (e : StreamEntry),
    let of (P : Fmt → Prop) : Prop := ∀ f, Fmt.ofCode (Xb.wfmt b) = some f → P f
    let bytes := if Xb.sfmt b = 0 then 4 else 2
    let formats : Prop :=
      Fmt.ofCode (Xb.wfmt b) = none ∨ (¬ of fun f => f.isLedger = true ∨ f = .fp32 ∨ f = .bf16) ∨ (Xb.lfmt b ≠ 0 ∧ Xb.lfmt b ≠ 2 ∧ Xb.lfmt b ≠ Xb.wfmt b)
        ∨ (Xb.sfmt b ≠ 0 ∧ (kind = .send ∨ Xb.sfmt b ≠ 2)) ∨ (Xb.arr b = true ∧ Xb.lfmt b ≠ 2)
    let mapping : Prop :=
      e.smoothEn = true ∨ (¬ of fun f => e.map = false ∨ (e.cls = 0 ∧ (f.isLedger = true → f = .int8 ∨ f = .uint8)))
        ∨ (¬ of fun f => f.isLedger = true → e.rotBlock ≠ 0 → e.signEn = true → e.signBase.toNat + Xb.nct b ≤ 16384)
        ∨ (kind = .put ∧ ¬ of fun f => srcPair e f = true → e.tiles % 2 = 0 ∧ Xb.nct b % 2 = 0)
    let places : Prop :=
      Xb.local' b % 64 ≠ 0 ∨ Xb.rledger b % 64 ≠ 0 ∨ addrOff (Xb.remote b) % 64 ≠ 0 ∨ (kind = .send ∧ Xb.local' b ≠ 0) ∨ Xb.nrows b = 0 ∨ Xb.nct b = 0
        ∨ (kind ≠ .send ∧ Xb.spitch b * 64 < Xb.nct b * 128 * bytes) ∨ (Xb.arr b = false ∧ Xb.dpitch b * 512 < Xb.nct b * 128 * Xb.lbits b)
    (xferBad kind b e false = true ↔ Xb.reservedSet b = true ∨ formats ∨ mapping ∨ places) ∧ xferBad kind b e true = true)

/-- R141, R155, R226, R235, R236, R245: CVT presents its copy, GA to TILE, GB to ROWBLK, GC to SLOT, to a port of its own Waystation: a
port that can take it takes it as the program's descriptor and the program goes on, else the program waits. A port of another Waystation,
or CVT on the Gatehouse's sequencer, faults with UNIT. The order of the fault checks is log entry 33's reading. -/
def Obligations.CvtPresents : Prop :=
  ∀ (q : Fin 9) (w : W64) (s : State), s.part.Calm → s.part.Issues q.val w → IW.opc w = 8 → fld w 39 25 = 0 →
    let x := s.part
    let y := x.seq q.val
    let dp := fld w 33 6
    let faults (code : Nat) (t : Part) : Prop := (t.seq q.val).st = 4#3 ∧ (t.seq q.val).fcode = BitVec.ofNat 8 code ∧ t.dps = x.dps
    (q.val = 8 → Acts (.cvt q .clean) s (faults 4))
    ∧ (q.val < 8 → dp / 8 ≠ q.val → Acts (.cvt q .clean) s (faults 4))
    ∧ (q.val < 8 → dp / 8 = q.val → fld w 18 15 % 2 = 1 → Acts (.cvt q .clean) s (faults 3))
    ∧ (∀ n, q.val < 8 → dp / 8 = q.val → fld w 18 15 % 2 = 0 → y.block (fld w 18 15) 2 = some n →
        let d0 : BitVec 128 := BitVec.ofNat 128 n
        let d1 := setFld d0 37 12 (Desc.tile d0 + (y.reg (IW.ga w)).toNat)
        let d2 := setFld d1 49 16 (Desc.rowblk d0 + (y.reg (IW.gb w)).toNat)
        let d := setFld d2 24 2 (Desc.slot d0 + (y.reg (IW.gc w)).toNat)
        let p := x.dp dp
        let code := descCheck d (x.stream (Desc.stream d)) (p.ctx (Desc.ctx d)) (x.env (Desc.stream d)).wide false ((x.lodge (Desc.lodge d)).joinOk d) false (x.tagOk d)
        let goes (t : Part) : Prop := (t.seq q.val).st = 1#3 ∧ (t.seq q.val).pc = y.pc + 1 ∧ (t.seq q.val).regs = y.regs ∧ ∀ m, m ≠ q.val → t.seq m = x.seq m
        (p.fenced = false → p.exec = none → Desc.chain d = 0 → Desc.pair d = false → code = 0 → Acts (.cvt q .clean) s fun t =>
            goes t ∧ (t.seq q.val).drains = y.drains + 1
              ∧ (∃ j : DrainJob, t.dp dp = { p with exec := some j } ∧ j.desc = d ∧ j.src = some q ∧ j.started = false) ∧ ∀ m, m ≠ dp → t.dp m = x.dp m)
        ∧ (p.fenced = false → p.exec = none → Desc.chain d = 0 → code ≠ 0 → Desc.evtEn d = false →
          (Desc.asksLodge d (x.stream (Desc.stream d)) = true → ¬ x.LodgeOver (Desc.lodge d)) → Acts (.cvt q .clean) s fun t =>
            goes t ∧ (t.dp dp).rejectCnt = satAdd p.rejectCnt 1 ∧ (t.dp dp).exec = none ∧ ∀ m, m ≠ dp → t.dp m = x.dp m)
        ∧ (p.fenced = false → p.exec ≠ none → p.pend ≠ none → Acts (.cvt q .clean) s fun t =>
            (t.seq q.val).st = 2#3 ∧ (t.seq q.val).pc = y.pc ∧ (t.seq q.val).wait = .cvt dp false ∧ x.OnlySeqs t))

/-! ## The Courier -/

/-- R219 to R223, R225, R238, R283: an issue of a bound and idle group is its member's input: a leaf passes it up at once, a leader waits for
its children, a lone member has its result at once; a busy, unbound or disabled group, and OP 3, refuse. The COURIER instruction issues a
barrier at once and a sum when its payload has been read. Up flits join their level, and complete it in rank order; one after its level, or of
another binding, is counted. Down flits give the member its result. When the budget of a level ends, it combines what has come, with ABSENT. Its
corners are log entries 31 and 51; its requests take the lowest free tag (log entry 9). -/
def Obligations.Courier : Prop :=
  ∀ (g : Fin 16) (v : W32) (s : State), s.part.Calm → s.part.shut = false →
    let x := s.part
    let c := x.crg g.val
    let op : BitVec 2 := BitVec.ofNat 2 (fld v 0 2)
    let len8 : BitVec 3 := BitVec.ofNat 3 (fld v 2 3)
    let can : Prop := c.busy = false ∧ c.bound = true ∧ x.courier.en = true ∧ ∀ t0, c.doneAt = some t0 → t0 / 5 ≠ x.now / 5
    let fits : Prop := c.level = 0 ∧ c.acc = none ∧ c.parts = [] ∧ c.sinces = [none, none, none, none]
    let asleep : Prop := (x.lg x.crLane).active = false ∧ (x.lg x.crLane).queues.length = 6
    let own (d : List W32) : CrPart := { rank := c.rank.toNat, count := 1, absent := false, ovf := false, data := d }
    let pay (op : BitVec 2) (len8 : BitVec 3) : List W32 := if op = 2#2 then List.replicate 16 0 else pad16 (c.data.take (2 * (len8.toNat + 1)))
    let others (t : Part) : Prop := (∀ m, m ≠ g.val → t.crg m = x.crg m) ∧ t.dps = x.dps ∧ t.ctxs = x.ctxs ∧ t.nocs = x.nocs
    let has (t : Part) (p : CrPart) : Prop :=
      (t.crg g.val).data = pad16 p.data ∧ (t.crg g.val).count = BitVec.ofNat 17 p.count ∧ (t.crg g.val).absent = p.absent ∧ (t.crg g.val).ovf = p.ovf
        ∧ (t.crg g.val).doneF = true ∧ (t.crg g.val).busy = false ∧ bitOf t.irq.cr g.val = true
    let up (t : Part) (z : CrGroup) (dst : FabId) (dir : Nat) (p : CrPart) : Prop :=
      (t.lg x.crLane).queues.getD 0 [] = (x.lg x.crLane).queues.getD 0 [] ++ mkFlits .courier 0 dst x.ownId 0 x.gh.nextMsg (crPayload g.val z dir p)
    (¬ can ∨ op = 3#2 → Acts (.courierIssue g v) s fun t => t.crg g.val = { c with refused := true } ∧ bitOf t.irq.cr g.val = true ∧ others t ∧ t.gh = x.gh)
    ∧ (can → op ≠ 3#2 → fits → c.children = [] → c.parent = none → Acts (.courierIssue g v) s fun t => has t (own (pay op len8)) ∧ others t)
    ∧ (∀ p, can → op ≠ 3#2 → fits → c.children = [] → c.parent = some p → asleep → Acts (.courierIssue g v) s fun t =>
        (t.crg g.val).busy = true ∧ (t.crg g.val).cseq = BitVec.ofNat 32 (fld v 8 24)
          ∧ up t { c with op := op, len8 := len8, cseq := BitVec.ofNat 32 (fld v 8 24) } p 0 (own (pay op len8)) ∧ others t)
    ∧ (can → op ≠ 3#2 → fits → c.children ≠ [] → 0 < c.leads → c.levelFull 1 = false → Acts (.courierIssue g v) s fun t =>
        (t.crg g.val).busy = true ∧ (t.crg g.val).acc = some (own (pay op len8)) ∧ (t.crg g.val).sinces.getD 0 none = some x.now
          ∧ (t.crg g.val).op = op ∧ (t.crg g.val).len8 = len8 ∧ others t ∧ t.gh = x.gh)
    ∧ (∀ (q : Fin 9) (w : W64), x.Issues q.val w → IW.opc w = 0x12 → fld w 36 28 = 0 → fld w 18 4 = g.val →
        let y := x.seq q.val
        let goes (t : Part) : Prop := (t.seq q.val).st = 1#3 ∧ (t.seq q.val).pc = y.pc + 1 ∧ (t.seq q.val).regs = y.regs ∧ ∀ m, m ≠ q.val → t.seq m = x.seq m
        (fld w 22 2 = 2 → IW.ga w = 0 → IW.gb w = 0 → can → fits → c.children = [] → c.parent = none → Acts (.courier q) s fun t =>
            goes t ∧ has t (own (List.replicate 16 0)) ∧ others t
              ∧ (bitOf w 35 = true → y.event (fld w 27 8) = (0, 0) → (t.seq q.val).event (fld w 27 8) = (1, evCourier 0 g.val 1)))
        ∧ (fld w 22 2 < 2 → badWordOff (y.reg (IW.ga w)) = false → badWordOff (y.reg (IW.gb w)) = false → (x.noc q.val).waiting = [] →
            (x.noc q.val).openReqs = [] → 1 ≤ (x.noc q.val).reqCr → (x.noc q.val).merging = false → Acts (.courier q) s fun t =>
            goes t ∧ t.courier = x.courier ∧ (t.noc q.val).reqCr = (x.noc q.val).reqCr - 1
              ∧ Emit.nocRead q.val 0 ((y.reg (IW.ga w)).toNat / 64 * 64) (((y.reg (IW.ga w)).toNat % 64 + (fld w 24 3 + 1) * 8 + 63) / 64 * 64) ∈ t.out
              ∧ ∀ m, m ≠ q.val → t.noc m = x.noc m))
    ∧ (∀ r k, r.cgrp = g → c.bound = true →
        let valid : Prop := x.courier.en = true ∧ r.cepoch = c.cepoch ∧ r.cseq = c.cseq
        let lv := crLevel c.rank.toNat k.1
        (x.courier.en = true → r.cepoch ≠ c.cepoch → Becomes (.courierUpFlit r) s { x with courier := { x.courier with epochDropCnt := satAdd x.courier.epochDropCnt 1 } }
          ∧ Becomes (.courierDownFlit r) s { x with courier := { x.courier with epochDropCnt := satAdd x.courier.epochDropCnt 1 } })
        ∧ (x.courier.en = false → Becomes (.courierUpFlit r) s x ∧ Becomes (.courierDownFlit r) s x)
        ∧ (valid → c.children.find? (fun i => decide (i.2 = r.src)) = some k →
            (lv ≤ c.level → Becomes (.courierUpFlit r) s { x with courier := { x.courier with lateCnt := satAdd x.courier.lateCnt 1 } })
            ∧ (c.level < lv → c.sinces.getD (lv - 1) none = none → c.parts = [] → c.acc = none → Acts (.courierUpFlit r) s fun t =>
                (t.crg g.val).parts = [r.part k.1] ∧ (t.crg g.val).sinces = c.sinces.set (lv - 1) (some x.now) ∧ others t ∧ t.gh = x.gh)
            ∧ (∀ a, c.children = [k] → lv = 1 → c.level = 0 → c.acc = some a → c.parts = [] → c.parent = none → c.busy = true → c.prog = none →
                (∀ t0, c.sinces.getD 0 none = some t0 → x.now < t0 + x.courier.budget.toNat) → asleep →
                Acts (.courierUpFlit r) s fun t =>
                  let z := CrPart.add c.op a (r.part k.1)
                  has t z ∧ up t c k.2 1 { z with rank := c.rank.toNat } ∧ others t))
        ∧ (valid → c.children = [] → c.prog = none → c.mine = none → Acts (.courierDownFlit r) s fun t => has t (r.part 0) ∧ others t ∧ t.gh = x.gh))
    ∧ ((∀ i, i < 4 → ∀ t0, c.sinces.getD i none = some t0 → x.now < t0 + x.courier.budget.toNat) → Becomes (.courierBudgetExpiry g) s x)
    ∧ (∀ a t0 k, c.level = 0 → c.children = [k] → crLevel c.rank.toNat k.1 = 1 → c.acc = some a → c.parts = [] → c.parent = none → c.prog = none →
        c.sinces.getD 0 none = some t0 → t0 + x.courier.budget.toNat ≤ x.now → asleep →
        Acts (.courierBudgetExpiry g) s fun t => has t { a with absent := true } ∧ up t c k.2 1 { a with rank := c.rank.toNat, absent := true } ∧ others t)

/-! ## Control traffic between Keepers -/

/-- R273, R291, R302, R313: a CONTROL message wakes the firmware complex; while K0 does not run it waits, stamped, up to 512 of them; one more is
counted lost; a reserved cause or reason makes the message malformed.
R189, R251, R260, R262, R264, R269, R271, R274, R277, R279: K0 as a member. A newer order is carried out, and PREP and ARM answered, newer or
not; an older one changes no context. PREP discards the chunk's rows and keeps the contribution, ARM arms it, GO sends the armed start
member's contribution, COMPLETE and ABANDON end the contexts with COMPLETE and ABORTED, SKIP marks the rank dead, REDRAW waits for its step,
SHADOW installs a piece whose check word is right: a role epoch by its bytes, fabric credits as the
sender read them. A PROBE is answered; an answer inside
the window splits the pair. Of a member with at most one context of the group, no message out,
no Courier group bound to it, and no twin taken over. That a SKIP with a SEQ, or with CHUNK 1, is for the rest of that SEQ and one with neither for
good, is log entry 14's DESIGN CHOICE; a rank that is dead for good stays so (R262). A SKIP of the twin's rank while the pair is split reports both of
its ranks (log entry 32), here over the one lane group that leads to the manager.
R272: a manager that stays silent for 1 ms is lost, and an order that comes at the end of that time or later finds it lost first; ranks skipped
for a SEQ come back.
R219, R274, R277, R326: SPARE brings a table and is answered INSTALLED; at a spare it takes a slot and the lowest free Courier group, with empty
Envelopes where no image came (log entries 51 and 52 say what is open of it); for a join of start-up inside its window it completes the join, and
later fails it.
Log entries 32 and 52 say what the spec leaves open of K0, the twin and the images; log entry 13 of a start beyond the format; log entry 5 of the
firmware's writes. -/
def Obligations.ControlOrders : Prop :=
  (∀ (c : Ctrl) (e : Byte) (b : Bool) (img : GroupImage) (step : W32) (ident : FabId) (epoch : W16) (i : Instr) (m : CtlMsg) (s : State),
    s.part.Calm → s.part.mb.runs 0 = false →
    let x := s.part
    let msg (k ext : Nat) : CtlMsg := .mk' x.ownId k c ext
    (i = .stall c e → 1 ≤ e.toNat ∧ e.toNat ≤ 7) → (i = .drop c e → 1 ≤ e.toNat ∧ e.toNat ≤ 3) →
    (i, m) ∈ ([(.stall c e, msg 0x10 e.toNat), (.prep c, msg 0x11 0), (.prepAck c, msg 0x12 0), (.arm c, msg 0x13 0), (.armAck c, msg 0x14 0), (.go c, msg 0x15 0),
        (.delivered c, msg 0x16 0), (.complete c, msg 0x17 0), (.loss c b, msg 0x20 b.toNat), (.skip c, msg 0x21 0), (.drop c e, msg 0x22 e.toNat),
        (.abandon c, msg 0x23 0), (.installed c, msg 0x32 0), (.spare c img, { msg 0x30 0 with img := some img }),
        (.redraw c step ident epoch, { msg 0x33 0 with step := step, ident := ident, epoch := epoch })] : List (Instr × CtlMsg)) →
    (x.mb.ctlq.length < 512 → Becomes i s { x.wake .fwc with mb := { x.mb with ctlq := x.mb.ctlq ++ [{ m with stamp := x.now }] } })
    ∧ (512 ≤ x.mb.ctlq.length → x.mb.qlostC.toNat < 65535 → Becomes i s { x.wake .fwc with mb := { x.mb with qlostC := x.mb.qlostC + 1 } }))
  ∧ (∀ (c : Ctrl) (e : Byte) (s : State), s.part.Calm →
    let bad : Part := { s.part with gh := { s.part.gh with badFlitCnt := satAdd s.part.gh.badFlitCnt 1 } }
    (e = 0 ∨ 7 < e.toNat → Becomes (.stall c e) s bad) ∧ (e = 0 ∨ 3 < e.toNat → Becomes (.drop c e) s bad))
  ∧ (∀ (c : Ctrl) (g : Group) (r l : Nat) (s : State), s.part.Calm → s.part.NoFence → s.part.mb.runs 0 = true →
    let x := s.part
    let n := c.chunk.toNat
    let gn := c.group.toNat
    x.group gn = some g → g.rank = some r → x.gh.twinValid = false → x.twinCtxs = [] → x.gh.outMsgs = [] → (∀ k, (x.crg k).group ≠ some c.group) →
    let inTime : Prop := ∀ t0, g.reportAt = some t0 → x.now < t0 + 1000000
    let new : Prop := inTime ∧ newerJseq c.jseq g.jseqLast = true
    let quiet : Prop := g.manager = true → g.replays = [] ∧ g.completeSeq = none
    let pairLost : Prop := x.twin.splitNow = true ∧ x.twin.lostTold = false ∧ (g.img.member c.rank.toNat).ident = x.twinId
    let lasts : Bool := decide (c.seq = 0 ∧ c.chunk = 0)
    let g' : Group := { g with jseqLast := if newerJseq c.jseq g.jseqLast then c.jseq else g.jseqLast, mgrId := c.src, reportAt := none }
    let answer (kind : Nat) : CtlMsg := .mk' c.src kind { c with src := x.ownId, jseq := 0, rank := BitVec.ofNat 16 r } 0
    let mine (k : Nat) (y : Ctx) : Prop := x.ctxs = [(k, y)] ∧ y.opening = false ∧ Tb.group y.blk = gn ∧ Tb.seq y.blk = c.seq.toNat ∧ y.role = .member
    let ends (i : Instr) (code : Nat) : Prop :=
      ∀ k y q ev, new → mine k y → y.owner = some (q, ev, true) → (x.seq q).wait = .none → Acts i s fun t =>
        t.ctxs = [] ∧ ((x.seq q).event ev.toNat = (0, 0) → (t.seq q).event ev.toNat = (1, evTether code k 0 y.status.toNat))
          ∧ (∀ m, m ≠ q → t.seq m = x.seq m) ∧ t.dps = x.dps ∧ x.NocsStand t ∧ tabFind t.tetherRegs k = some (Tb.hopWs y.blk, y.status, y.deliveredCnt)
    let old (i : Instr) : Prop := inTime → newerJseq c.jseq g.jseqLast = false → Acts i s fun t => t.ctxs = x.ctxs ∧ t.group gn = some g' ∧ x.UnitsStand t
    (∀ k y, new → mine k y → y.ins = [] → y.outs = [] → x.Reaches c.src l → Acts (.prep c) s fun t =>
        (∃ z, t.ctxOf 0 k = some z ∧ (z.chunk n).replay = .prepped ∧ (z.chunk n).contrib = (y.chunk n).contrib ∧ (z.chunk n).deps = (y.chunk n).deps
          ∧ (z.chunk n).held = none ∧ (z.chunk n).heldHall = none ∧ (z.chunk n).rackRow = none ∧ (z.chunk n).finished = none
          ∧ (z.chunk n).hopDone = false ∧ (z.chunk n).delivered = false ∧ z.doneSent = false ∧ ∀ m, m ≠ n → z.chunk m = y.chunk m)
          ∧ (t.ws (Tb.hopWs y.blk)).replayCnt = satAdd (x.ws (Tb.hopWs y.blk)).replayCnt 1 ∧ t.group gn = some g' ∧ x.Told t l (answer 0x12) ∧ x.UnitsStand t)
    ∧ (inTime → newerJseq c.jseq g.jseqLast = false ∨ x.ctxs = [] → x.Reaches c.src l → Acts (.prep c) s (fun t => x.Told t l (answer 0x12) ∧ t.ctxs = x.ctxs ∧ t.group gn = some g' ∧ x.UnitsStand t)
        ∧ Acts (.arm c) s fun t => x.Told t l (answer 0x14) ∧ t.ctxs = x.ctxs ∧ t.group gn = some g' ∧ x.UnitsStand t)
    ∧ (∀ k y us, new → mine k y → (y.chunk n).replay = .prepped → (y.chunk n).contrib = some us → x.Reaches c.src l → Acts (.arm c) s fun t =>
        (∃ z, t.ctxOf 0 k = some z ∧ (z.chunk n).replay = .armed ∧ (z.chunk n).contrib = some us) ∧ t.group gn = some g' ∧ x.Told t l (answer 0x14) ∧ x.UnitsStand t)
    ∧ (∀ k y us h d, new → mine k y → (y.chunk n).replay = .armed → (y.chunk n).hopDone = false → (y.chunk n).contrib = some us → y.isStart n = true →
        Tb.rank y.blk < 4096 → y.rackNext g.img 1 = (h, some d) → h = 1 → Acts (.go c) s fun t =>
          (∃ z o, t.ctxOf 0 k = some z ∧ (z.chunk n).replay = .running ∧ (z.chunk n).hopDone = true ∧ z.outs = y.outs ++ [o] ∧ o.chunk = n ∧ o.phase = 0
            ∧ o.dst = some d ∧ o.hops = 1 ∧ o.startTaken = false ∧ o.units = us.zipIdx.map fun u => (y.fit (n * Tb.uc y.blk + u.2) u.1).toUnit)
            ∧ x.Asked t 72 64 ∧ t.group gn = some g' ∧ x.UnitsStand t)
    ∧ (∀ k y, new → mine k y → (y.chunk n).replay ≠ .armed → Acts (.go c) s fun t => t.ctxs = x.ctxs ∧ t.group gn = some g' ∧ x.UnitsStand t)
    ∧ old (.go c) ∧ old (.complete c) ∧ old (.skip c) ∧ old (.abandon c) ∧ old (.redraw c 0 0 0)
    ∧ ends (.complete c) 0 ∧ ends (.abandon c) 2
    ∧ (new → x.ctxs = [] → Acts (.complete c) s fun t => ∃ u, t.group gn = some u ∧ u.seqSkips = g.seqSkips.filter (fun p => decide (p.2 ≠ c.seq))
        ∧ ∀ m, m < g.img.members.length → u.img.deadRank m = (g.img.deadRank m && !((m, c.seq) ∈ g.seqSkips && !u.seqSkips.any fun p => p.1 = m)))
    ∧ (new → quiet → x.ctxs = [] → ¬ (pairLost ∧ (lasts = true ∨ g.gone c.rank.toNat = true)) → Acts (.skip c) s fun t => ∃ u, t.group gn = some u
        ∧ (∀ m, m < g.img.members.length → u.img.deadRank m = (decide (m = c.rank.toNat) || g.img.deadRank m))
        ∧ (∀ m, m ≠ c.rank.toNat → u.img.member m = g.img.member m) ∧ u.jseqLast = c.jseq
        ∧ u.seqSkips = (if lasts = true then g.seqSkips.filter (fun p => decide (p.1 ≠ c.rank.toNat))
            else if g.gone c.rank.toNat = true ∨ (c.rank.toNat, c.seq) ∈ g.seqSkips then g.seqSkips else (c.rank.toNat, c.seq) :: g.seqSkips)
        ∧ t.twin.lostTold = x.twin.lostTold ∧ x.UnitsStand t)
    ∧ (new → quiet → x.ctxs = [] → pairLost → lasts = true → x.groups = [(gn, g)] → g.ofTwin = false → x.twin.mirror.members = [] → x.Reaches c.src l →
        (∀ k, k < 8 → k ≠ l → x.qualifies 0xFF (fld (tabGet x.gh.routes (idRoute c.src) 0) 0 8) k = false) →
        g.img.rankOf x.twinId = some c.rank.toNat → Acts (.skip c) s fun t =>
          let lossOf (k : Nat) : List Byte :=
            controlBody 0x20 (BitVec.ofNat 16 gn) 0 0 0 (BitVec.ofNat 16 k) (CtlMsg.mk' c.src 0x20 c 0).rest
          t.twin.lostTold = true ∧ (∃ u, t.group gn = some u ∧ u.gone c.rank.toNat = true) ∧ x.UnitsStand t
            ∧ (t.lg l).queues = (x.lg l).queues.set 1 ((x.lg l).queues.getD 1 []
                ++ mkFlits .control 1 c.src x.ownId (x.roleOf c.src) x.gh.nextMsg (lossOf r)
                ++ mkFlits .control 1 c.src x.ownId (x.roleOf c.src) (x.gh.nextMsg + 1) (lossOf c.rank.toNat)))
    ∧ (∀ step ident epoch, new → Acts (.redraw c step ident epoch) s fun t =>
        t.group gn = some { g' with redraws := g.redraws ++ [(step, c.rank.toNat, ident, epoch)] } ∧ t.ctxs = x.ctxs ∧ x.UnitsStand t)
    ∧ (∀ (off : W32) (id : FabId) (e : W16), off.toNat = 0x24100 + 2 * id.toNat → Acts (.shadow c off (toBytes 2 e.toNat) (crc32c (toBytes 2 e.toNat)) []) s fun t =>
        t.roleOf id = e ∧ (∀ m, m ≠ id → t.roleOf m = x.roleOf m) ∧ x.UnitsStand t)
    ∧ (∀ (off : W32) data (k : Fin 8) cr, 0x23100 < off.toNat + data.length → off.toNat < 0x24100 → off.toNat + data.length ≤ 0x24100 →
        Acts (.shadow c off data (crc32c data) [.fabricCredits k cr]) s fun t =>
          t.lg k.val = { x.lg k.val with credits := cr } ∧ (∀ m, m ≠ k.val → t.lg m = x.lg m) ∧ x.UnitsStand t)
    ∧ (∀ off data crc items, crc32c data ≠ crc → Becomes (.shadow c off data crc items) s x)
    ∧ (∀ src, x.Reaches src l → Acts (.probe src) s fun t => x.Told t l (.mk' src 2 { src := x.ownId, group := 0, jseq := 0, seq := 0, chunk := 0, rank := 0 } 0)
        ∧ t.groups = x.groups ∧ t.ctxs = x.ctxs ∧ x.UnitsStand t)
    ∧ (x.twin.st = 1#3 → x.now < x.twin.winAt + x.twin.probeTmo.toNat → (∀ k ∈ x.groups, k.2.unaccepted = []) → Acts (.probeAns x.twinId) s fun t =>
        t.twin = { x.twin with st := 4 } ∧ t.irq = { x.irq with twin := true } ∧ t.groups = x.groups ∧ t.ctxs = x.ctxs ∧ x.UnitsStand t ∧ t.gh = x.gh
          ∧ (g.ofTwin = false → Emit.splitReport g.mgrId g.img.group ∈ t.out))
    ∧ (x.twin.st ≠ 1#3 ∨ x.twin.winAt + x.twin.probeTmo.toNat ≤ x.now → Becomes (.probeAns x.twinId) s x))
  ∧ (∀ (c : Ctrl) (g : Group) (s : State), s.part.Calm → s.part.mb.runs 0 = true →
    let x := s.part
    let gn := c.group.toNat
    x.group gn = some g →
    (let noted (n : Nat) (kind : Byte) (arg : W32) (t : Part) : Prop :=
         t.Noted (x.mb.notePlace (x.mb.noteWr + BitVec.ofNat 32 n).toNat) (noteBytes kind c.group arg x.now)
       ∀ t0, g.reportAt = some t0 → t0 + 1000000 ≤ x.now → x.ctxs = [] → x.twinCtxs = [] → x.mb.runs 1 = true → x.mb.noteBase ≠ 0 →
        (x.mb.noteWr - x.mb.noteRd).toNat + 3 ≤ 2 ^ fld x.mb.noteSize 0 5 →
        let back (u : Group) : Prop := u.seqSkips = [] ∧ u.reportAt = none ∧ ∀ m, m < g.img.members.length → u.img.deadRank m = g.gone m
        let lost (t : Part) : Prop := x.UnitsStand t ∧ t.mb = { x.mb with noteWr := x.mb.noteWr + 3, traceq := t.mb.traceq }
          ∧ noted 0 5 0 t ∧ noted 1 6 2 t ∧ noted 2 3 x.glob.step t
        Acts (.managerLost c.group) s (fun t => lost t ∧ (∃ u, t.group gn = some u ∧ back u) ∧ (g.seqSkips = [] → t.group gn = some { g with reportAt := none }))
          ∧ Acts (.go c) s (fun t => lost t ∧ ∃ u, t.group gn = some u ∧ back u ∧ u.mgrId = c.src
              ∧ u.jseqLast = if newerJseq c.jseq g.jseqLast then c.jseq else g.jseqLast))
    ∧ ((∀ t0, g.reportAt = some t0 → x.now < t0 + 1000000) → Becomes (.managerLost c.group) s x))
  ∧ (∀ (c : Ctrl) (img : GroupImage) (l : Nat) (s : State), s.part.Calm → s.part.NoFence → s.part.mb.runs 0 = true →
    let x := s.part
    let gn := c.group.toNat
    img.group = c.group →
    let installed : CtlMsg := .mk' c.src 0x32 { c with src := x.ownId, jseq := 0 } 0
    let frame (t : Part) : Prop := t.ctxs = x.ctxs ∧ t.dps = x.dps ∧ t.seqs = x.seqs ∧ x.NocsStand t ∧ ∀ m, m ≠ gn → t.group m = x.group m
    (∀ j ∈ x.pwr.joins, x.pwr.bootStep = 10 → j.1 ≠ c.group) → x.Reaches c.src l →
      (∀ g, x.group gn = some g → Acts (.spare c img) s fun t => x.Told t l installed ∧ frame t
          ∧ ∃ u, t.group gn = some u ∧ u.img = img ∧ u.slot = g.slot ∧ u.rank = some c.rank.toNat ∧ u.mgrId = c.src)
      ∧ (x.group gn = none → x.membershipsFull = true → Acts (.spare c img) s fun t => t.groups = x.groups ∧ frame t ∧ x.UnitsStand t ∧ ∀ n, t.lg n = x.lg n)
      ∧ (∀ k, x.group gn = none → x.membershipsFull = false → x.freeSlot = some k → img.rankOf x.ownId = none → Acts (.spare c img) s fun t =>
          x.Told t l installed ∧ frame t ∧ (∃ u, t.group gn = some u ∧ u.img = img ∧ u.slot = k ∧ u.rank = some c.rank.toNat ∧ u.mgrId = c.src ∧ u.manager = false)
            ∧ (∀ n, t.env n = if x.twin.imageIn = false ∧ ∀ g ∈ x.groups, g.2.rank = none then (x.env n).emptied else x.env n)
            ∧ (∀ b, x.crOf c.group = [] → (List.range 16).find? (fun i => !(x.crg i).bound && (x.crg i).group.isNone) = some b →
                (t.crg b).bound = true ∧ (t.crg b).group = some c.group ∧ (t.crg b).rank = c.rank ∧ (t.crg b).cepoch = Config.bindEpoch c.group
                  ∧ (t.crg b).parent = img.crParent c.rank.toNat ∧ (t.crg b).children = img.crChildren c.rank.toNat ∧ x.Asked t 73 2
                  ∧ ∀ i, i ≠ b → t.crg i = x.crg i)
            ∧ (x.crOf c.group ≠ [] ∨ (∀ i, i < 16 → (x.crg i).bound = true ∨ (x.crg i).group ≠ none) → t.courier = x.courier)))
  ∧ (∀ (c : Ctrl) (img : GroupImage) (j : W16 × FabId × Nat × Nat) (s : State), s.part.Calm → s.part.NoFence → s.part.mb.runs 0 = true →
    let x := s.part
    img.group = c.group → x.pwr.joins = [j] → j.1 = c.group → x.pwr.bootStep = 10 →
    let ready (t : Part) : Prop := t.glob.ready = true ∧ t.pwr.joins = [] ∧ t.pwr.bootStep = 11
    (x.now < j.2.2.2 + 100000000 → Acts (.spare c img) s fun t => ready t ∧ t.pwr.joinFail = x.pwr.joinFail
        ∧ ∃ u, t.group c.group.toNat = some u ∧ u.img = img ∧ u.slot = j.2.2.1 ∧ u.rank = img.rankOf x.ownId ∧ u.mgrId = c.src)
    ∧ (j.2.2.2 + 100000000 ≤ x.now → Acts (.spare c img) s fun t => ready t ∧ t.pwr.joinFail = true ∧ t.groups = x.groups ∧ x.UnitsStand t))

/-- R189, R260, R271, R272, R274, R278 to R280, R282, R326: K0 as the manager. A STALL starts a replay with PREP, unless one runs; the last PREP_ACK
opens the quiet time, each withdrawing what its member delivered; after it ARM goes out; the last ARM_ACK ends with GO; DELIVERED of every live rank brings COMPLETE. A LOSS, or a rank
silent for 200 µs, is counted, and skipped unless the twin serves it, with it, counted too, the rank whose twin it was and which is in recovery; an answer
at the end of the 200 µs or later finds its rank lost first; a DROP counts once, reason 3 skips the rank for its SEQ, and ABANDON
follows where the floor is crossed. INSTALLED of a drawn spare is followed by REDRAW. Every order is a journal entry that waits for the twin: of a
manager with a shadow alone. That a SKIP for the rest of a SEQ says so by the SEQ with CHUNK 1, where R273 gives it no field, is the model's DESIGN
CHOICE (log entry 14, which also says how a table is laid out). Log entries 32 and 52 say what the spec leaves open of K0, the twin and the images,
log entry 5 how the firmware's writes go out. -/
def Obligations.ManagerOrders : Prop :=
  ∀ (c : Ctrl) (g : Group) (s : State), s.part.Calm →
    let x := s.part
    let n := c.group.toNat
    let k := c.chunk.toNat
    let r := c.rank.toNat
    x.Manages n g →
    let keeps (t : Part) : Prop := (∀ m, m ≠ n → t.group m = x.group m) ∧ t.ctxs = x.ctxs ∧ x.UnitsStand t ∧ t.larder = x.larder
    let acked (e : Byte) (j : List JEntry) : List JEntry := j.map fun i => if i.kind = e ∧ i.chunk.toNat = k then { i with done := true } else i
    let serves (m : MgrReplay) : Prop := ∀ q, g.completeSeq = some q → q = m.seq
    let withdrawn (m : MgrReplay) : List Nat := if g.completeSeq = some m.seq then g.delivered.filter fun d => decide (d ≠ r) else g.delivered
    let pairAt (p : Nat) : Prop := g.img.pairOf r = some p ∧ ∃ q ∈ g.recovery, q.1 = p
    let lone : Prop := g.replays = [] ∧ g.completeSeq = none ∧ g.img.spares = []
    let under (d : List Nat) : Bool := ({ g with dropped := d } : Group).below
    let more (d : List Nat) (i : Nat) : List Nat := if i ∈ d then d else d ++ [i]
    (∀ e : Byte, 1 ≤ e.toNat → e.toNat ≤ 7 → tabFind g.replays k = none → Acts (.stall c e) s fun t => keeps t ∧ ∃ u, x.Ordered t n g u 0x11 0 k c.seq.toNat
        ∧ u.delivered = (if g.completeSeq = some c.seq then [] else g.delivered) ∧ u.img = g.img
        ∧ ∃ m, tabFind u.replays k = some m ∧ m.phase = 0 ∧ m.seq = c.seq ∧ m.since = x.now ∧ m.prepAcks = [] ∧ m.armAcks = [])
    ∧ (∀ (e : Byte) m, 1 ≤ e.toNat → e.toNat ≤ 7 → tabFind g.replays k = some m → Acts (.stall c e) s fun t => keeps t ∧ t.group n = some g)
    ∧ (∀ m, g.replays = [(k, m)] → x.now < m.since + 200000 → m.phase = 0 → serves m → g.allIn (r :: m.prepAcks) = true → Acts (.prepAck c) s fun t => keeps t
        ∧ t.group n = some { g with delivered := withdrawn m, replays := [(k, { m with prepAcks := r :: m.prepAcks, phase := 1, lastAck := x.now })], journal := acked 0x11 g.journal })
    ∧ (∀ m, g.replays = [(k, m)] → x.now < m.since + 200000 → m.phase = 0 → serves m → g.allIn (r :: m.prepAcks) = false → Acts (.prepAck c) s fun t => keeps t
        ∧ t.group n = some { g with delivered := withdrawn m, replays := [(k, { m with prepAcks := r :: m.prepAcks })] })
    ∧ (∀ m, g.replays = [(k, m)] → m.since + 200000 ≤ x.now → m.phase = 0 ∨ m.phase = 2 → g.img.live.filter m.owed = [r] → g.completeSeq = none →
        g.img.spares = [] → (∀ p ∈ g.recovery, p.1 ≠ r) → (∀ p, ¬ pairAt p) → under g.dropped = under (more g.dropped r) →
        let lost (t : Part) : Prop := keeps t ∧ ∃ u, t.group n = some u ∧ u.dropped = more g.dropped r ∧ u.img.deadRank r = true
          ∧ u.recovery = g.recovery ++ [(r, 2)] ∧ u.journal.any (fun e => decide (e.jseq = g.nextJseq ∧ e.kind = 0x21 ∧ e.rank = BitVec.ofNat 16 r)) = true
        (m.phase = 0 → Acts (.prepAck c) s lost) ∧ (m.phase = 2 → Acts (.armAck c) s lost))
    ∧ (∀ m, g.replays = [(k, m)] → x.now < m.since + 200000 → m.phase = 2 → g.allIn (r :: m.armAcks) = true → g.completeSeq = none → Acts (.armAck c) s fun t => keeps t
        ∧ ∃ u, x.Ordered t n { g with journal := acked 0x13 g.journal } u 0x15 0 k m.seq.toNat ∧ u.replays = [])
    ∧ (∀ m, tabFind g.replays k = some m → m.phase = 1 → m.lastAck + 20000 ≤ x.now → Acts (.replayQuietEnd c.group c.chunk) s fun t => keeps t
        ∧ ∃ u, x.Ordered t n g u 0x13 0 k m.seq.toNat ∧ tabFind u.replays k = some { m with phase := 2, since := x.now, armAcks := [] })
    ∧ ((∀ m, tabFind g.replays k = some m → m.phase ≠ 1 ∨ x.now < m.lastAck + 20000) → Becomes (.replayQuietEnd c.group c.chunk) s x)
    ∧ (g.replays = [] → g.completeSeq = some c.seq → g.allIn (r :: g.delivered) = true → Acts (.delivered c) s fun t => keeps t
        ∧ ∃ u, x.Ordered t n g u 0x17 0 0 c.seq.toNat ∧ u.delivered = [] ∧ u.completeSeq = none)
    ∧ (g.completeSeq = some c.seq → g.allIn (r :: g.delivered) = false → Acts (.delivered c) s fun t => keeps t ∧ t.group n = some { g with delivered := r :: g.delivered })
    ∧ (lone → (∀ p ∈ g.recovery, p.1 ≠ r) → (∀ d ∈ g.drawing, d.1 = r → c.src ≠ d.2 ^^^ 1#17) → g.gone r = false →
        under g.dropped = under (more g.dropped r) →
        ((∀ p, ¬ pairAt p) → Acts (.loss c false) s (fun t => keeps t ∧ ∃ u, x.Ordered t n g u 0x21 r 0 0 ∧ u.dropped = more g.dropped r ∧ u.recovery = g.recovery ++ [(r, 2)]
            ∧ u.img.deadRank r = true ∧ u.seqSkips = g.seqSkips.filter (fun p => decide (p.1 ≠ r)) ∧ ∀ m, m ≠ r → u.img.member m = g.img.member m))
        ∧ (∀ p, pairAt p → g.gone p = false → under g.dropped = under (more (more g.dropped r) p) → Acts (.loss c false) s (fun t => keeps t ∧ ∃ u, t.group n = some u
            ∧ u.dropped = more (more g.dropped r) p
            ∧ u.img.deadRank r = true ∧ u.img.deadRank p = true ∧ u.nextJseq = g.nextJseq + 2 ∧ ∀ m, m ≠ r → m ≠ p → u.img.member m = g.img.member m))
        ∧ Acts (.loss c true) s (fun t => keeps t ∧ t.group n = some { g with dropped := more g.dropped r, recovery := g.recovery ++ [(r, 2)] }))
    ∧ (∀ m, g.replays = [(k, m)] → m.phase = 0 → r ∉ m.prepAcks → r ∈ g.img.live → m.since + 200000 ≤ x.now → g.completeSeq = none → g.img.spares = [] →
        (∀ p ∈ g.recovery, p.1 ≠ r) → (∀ p, ¬ pairAt p) → r ∉ g.dropped → under g.dropped = under (g.dropped ++ [r]) → g.img.live.all (fun i => i = r || m.prepAcks.contains i) = false →
        Acts (.replayAnswerTimeout c.group c.chunk c.rank) s fun t => keeps t ∧ ∃ u, x.Ordered t n g u 0x21 r 0 0 ∧ u.dropped = g.dropped ++ [r]
          ∧ u.recovery = g.recovery ++ [(r, 2)] ∧ u.img.deadRank r = true ∧ u.replays = g.replays)
    ∧ (∀ m, tabFind g.replays k = some m → x.now < m.since + 200000 ∨ r ∉ g.img.live → Becomes (.replayAnswerTimeout c.group c.chunk c.rank) s x)
    ∧ (under g.dropped = under (more g.dropped r) →
        (∀ e : Byte, e = 1 ∨ e = 2 → Acts (.drop c e) s fun t => keeps t ∧ t.group n = some { g with dropped := more g.dropped r })
        ∧ (g.replays = [] → g.completeSeq = none → Acts (.drop c 3) s fun t => keeps t
            ∧ ∃ u, x.Ordered t n g u 0x21 r 1 c.seq.toNat ∧ u.dropped = more g.dropped r ∧ u.img.deadRank r = true
              ∧ u.seqSkips = if g.gone r = true ∨ (r, c.seq) ∈ g.seqSkips then g.seqSkips else (r, c.seq) :: g.seqSkips))
    ∧ (r ∉ g.dropped → under g.dropped = false → under (g.dropped ++ [r]) = true → Acts (.drop c 1) s fun t => keeps t
        ∧ ∃ u, x.Ordered t n g u 0x23 0 0 0 ∧ u.dropped = g.dropped ++ [r])
    ∧ (∀ d, g.drawing = [(d, c.src)] → Acts (.installed c) s fun t => keeps t
        ∧ ∃ u, x.Ordered t n { g with journal := g.journal.map fun i => if i.kind = 0x30#8 ∧ i.rank.toNat = d then { i with done := true } else i } u 0x33 d 0
            (c.src.toNat * 2 ^ 16 + (x.roleOf c.src + 1).toNat * 2 ^ 48 + (x.glob.step + 1).toNat * 2 ^ 64) ∧ u.drawing = [])
    ∧ (∀ l m, g.drawing = [] → g.img.rankOf c.src = some m → x.Reaches c.src l → Acts (.installed c) s fun t => t.group n = some g
        ∧ x.Told t l { CtlMsg.mk' c.src 0x30 { c with src := g.mgrId, jseq := 0, rank := BitVec.ofNat 16 m } 0 with img := some g.img } ∧ x.UnitsStand t)

/-! ## The twin -/

/-- R18, R57, R58, R138, R264, R269, R271, R275, R276: a twin word in sequence with its check word right is accepted and its change enters the mirror;
any other is dropped and asked for again. A journal entry is accepted back; an acceptance releases its order. A good word after 4 µs of silence finds the
twin lost first, with a PROBE sent, and its change does not enter the frozen mirror. In the split state a good word starts the
resynchronisation, RESYNC_DONE ends it. A retry sends every word from its number onward again; a word of nothing goes out after 1 µs of
silence. The snapshot's drain ends, with the bytes it wrote, once no write of the image is outstanding. The firmware's writes go out as log entry 5 has
them. -/
def Obligations.TwinWords : Prop :=
  ∀ (seq : W16) (data : List Byte) (it : MirrorItem) (s : State), s.part.Calm →
    let x := s.part
    let w := x.twin
    let good : W32 := crc32c (toBytes 2 seq.toNat ++ data)
    let taken : Twin := { w with rxSeq := w.rxSeq + 1, lastRx := x.now }
    let plain : Prop := (∀ g e, it ≠ .journal g e) ∧ ∀ g j, it ≠ .journalAccepted g j
    let heard : Prop := x.now < w.lastRx + 4000
    (∀ crc, crc ≠ good ∨ seq ≠ w.rxSeq → Becomes (.twinWordReceive seq data crc ⟨it, none⟩) s { x with out := .twinRetry w.rxSeq :: x.out })
    ∧ (seq = w.rxSeq → w.st = 0#3 ∨ w.st = 5#3 → heard → plain → Becomes (.twinWordReceive seq data good ⟨it, none⟩) s { x with twin := { taken with mirror := w.mirror.apply it } })
    ∧ (∀ l, seq = w.rxSeq → w.st = 0#3 ∨ w.st = 5#3 → ¬ heard → x.Reaches x.twinId l → Acts (.twinWordReceive seq data good ⟨it, none⟩) s fun t =>
        t.twin = { taken with st := 1, lossTime := x.now, winAt := x.now, lostTold := false, unsynced := decide (w.st = 5#3) } ∧ t.irq = { x.irq with twin := true }
          ∧ x.Told t l (.mk' x.twinId 1 { src := x.ownId, group := 0, jseq := 0, seq := 0, chunk := 0, rank := 0 } 0) ∧ t.groups = x.groups ∧ t.ctxs = x.ctxs
          ∧ x.UnitsStand t)
    ∧ (seq = w.rxSeq → w.st ≠ 0#3 → w.st ≠ 4#3 → w.st ≠ 5#3 → Becomes (.twinWordReceive seq data good ⟨it, none⟩) s { x with twin := taken })
    ∧ (∀ g e, seq = w.rxSeq → heard → x.Mirrors → it = .journal g e → Acts (.twinWordReceive seq data good ⟨it, none⟩) s fun t =>
        t.twin.mirror = w.mirror.apply it ∧ t.twin.rxSeq = w.rxSeq + 1 ∧ Emit.twinWord w.txSeq (.journalAccepted g e.jseq) ∈ t.out ∧ t.twin.txSeq = w.txSeq + 1
          ∧ t = { x with twin := t.twin, out := t.out, glob := t.glob })
    ∧ (∀ g j gr e d l, seq = w.rxSeq → w.st = 0#3 ∨ w.st = 5#3 → heard → it = .journalAccepted g j → x.mb.runs 0 = true → x.group g.toNat = some gr → gr.unaccepted = [j] →
        gr.journal.find? (fun e => decide (e.jseq = j)) = some e → gr.targets e = [d] → gr.mgrId = x.ownId → x.Reaches d l →
        Acts (.twinWordReceive seq data good ⟨it, none⟩) s fun t =>
          x.Told t l (orderMsg gr e d) ∧ (∃ u, t.group g.toNat = some u ∧ u.unaccepted = [] ∧ u.nextJseq = gr.nextJseq) ∧ t.ctxs = x.ctxs ∧ x.UnitsStand t)
    ∧ (seq = w.rxSeq → w.st = 4#3 → plain → Acts (.twinWordReceive seq data good ⟨it, none⟩) s fun t =>
        t.twin.st = 5#3 ∧ t.twin.lostTold = false ∧ t.twin.mirror = Mirror.reset.apply it ∧ t.twin.rxSeq = w.rxSeq + 1 ∧ t.irq = { x.irq with twin := true }
          ∧ (w.mirrorEn = true → ∀ k ∈ x.ctxs, ∃ n, Emit.twinWord n (.context (Fin.ofNat 64 k.1) k.2.blk) ∈ t.out)
          ∧ t = { x with twin := t.twin, irq := t.irq, out := t.out, glob := t.glob })
    ∧ (w.st = 5#3 → Acts .resyncDone s fun t => t.twin = { w with st := 0, resyncCnt := satAdd w.resyncCnt 1 } ∧ t.irq = { x.irq with twin := true }
        ∧ t = { x with twin := t.twin, irq := t.irq, gb := t.gb, mb := { x.mb with traceq := t.mb.traceq }, nocs := t.nocs, pwr := t.pwr, out := t.out, glob := t.glob }
        ∧ x.NocsStand t
        ∧ (x.mb.runs 3 = true → t.mb = x.mb))
    ∧ (w.st ≠ 5#3 → Becomes .resyncDone s x)
    ∧ (let ws := w.txWords.filter fun k => decide ((k.1 - seq).toNat < 32768)
       Becomes (.twinRetryRequest seq) s
        { x with out := ws.map (fun k => Emit.twinWord k.1 k.2) ++ x.out, twin := { w with lastTx := if ws = [] then w.lastTx else x.now } })
    ∧ (w.lastTx + 1000 ≤ x.now → Becomes .twinKeepaliveTimer s
        { x with out := .twinWord w.txSeq .nothing :: x.out, twin := { w with txWords := ((w.txSeq, .nothing) :: w.txWords).take 32768, txSeq := w.txSeq + 1, lastTx := x.now } })
    ∧ (x.now < w.lastTx + 1000 → Becomes .twinKeepaliveTimer s x)
    ∧ (w.snapBusy = true → (x.noc 8).checkpointing = false → Becomes .snapshotDrainDone s { x with twin := { w with snapBusy := false, snapStep := w.snapOf, snapBytes := 884992 } })
    ∧ (w.snapBusy = false ∨ (x.noc 8).checkpointing = true → Becomes .snapshotDrainDone s x)

/-- R37, R58, R137, R263 to R266, R287: 4 µs without a word lose the twin and send a PROBE; a probe window without an answer ends in a claim on every
active lane group, or with TAKEOVER_EN 0, or where the pair was resynchronising, in the report alone; when the claim window ends, a lane group that has not acknowledged is down and the
twin's identity, its role epoch, its contexts and its Envelopes enter service here, an Envelope as this instance's own where that has no history and beside
it otherwise (log entry 32), its transfers ending UNREACHABLE. Before its time each of these rows does nothing. Of an instance with no
group, whose active lane groups have no PCS credit. Log entries 32 and 52 say what the spec leaves open of the takeover, log entry 5 how the
firmware's writes go out. -/
def Obligations.TwinLoss : Prop :=
  ∀ (l : Nat) (s : State), s.part.Calm → s.part.groups = [] → s.part.twin.mirror.members = [] → s.part.twin.mirror.managed = [] →
    let x := s.part
    let w := x.twin
    let lost : Prop := (w.st = 0#3 ∨ w.st = 5#3) ∧ w.lastRx + 4000 ≤ x.now
    let silent : Prop := w.st = 1#3 ∧ w.lostTold = false ∧ w.winAt + w.probeTmo.toNat ≤ x.now
    let isOver : Prop := w.st = 2#3 ∧ w.winAt + w.claimTmo.toNat ≤ x.now
    (lost → x.Reaches x.twinId l → Acts .twinLoss s fun t =>
        t.twin = { w with st := 1, lossTime := x.now, winAt := x.now, lostTold := false, unsynced := decide (w.st = 5#3) } ∧ t.irq = { x.irq with twin := true }
          ∧ x.Told t l (.mk' x.twinId 1 { src := x.ownId, group := 0, jseq := 0, seq := 0, chunk := 0, rank := 0 } 0) ∧ t.ctxs = x.ctxs ∧ x.UnitsStand t)
    ∧ (¬ lost → Becomes .twinLoss s x)
    ∧ (silent → w.takeoverEn = false ∨ w.unsynced = true → Acts .probeTimeout s fun t => t.twin = { w with lostTold := true } ∧ t.gh = x.gh ∧ t.groups = [] ∧ t.ctxs = x.ctxs ∧ x.UnitsStand t)
    ∧ (silent → w.takeoverEn = true → w.unsynced = false → (∀ g, g < 8 → (x.lg g).active = true → (x.lg g).pcsCr = 0) → (∃ g, g < 8 ∧ (x.lg g).active = true ∧ (x.lg g).down = false) →
        Acts .probeTimeout s fun t =>
          t.twin = { w with st := 2, winAt := x.now } ∧ t.irq = { x.irq with twin := true }
            ∧ (∀ g, g < 8 → t.lg g = { x.lg g with claimAck := false, lpReq := (x.lg g).lpReq && !(x.lg g).active,
                                                     linkq := (x.lg g).linkq ++ if (x.lg g).active then [.claim 1 x.twinId] else [] })
            ∧ t.ctxs = x.ctxs ∧ x.UnitsStand t)
    ∧ (¬ silent → Becomes .probeTimeout s x)
    ∧ (isOver → (∀ g, x.lg g = { LaneGroup.reset with active := (x.lg g).active, claimAck := (x.lg g).claimAck }) → Acts .claimTimeout s fun t =>
        t.twin.st = 3#3 ∧ t.irq.twin = true ∧ t.gh.identTwin = x.twinId ∧ t.gh.twinValid = true ∧ t.gh.epochTwin = w.mirror.epoch
          ∧ t.twin.takeoverNs = BitVec.ofNat 32 (x.now - w.lastRx)
          ∧ (∀ g, g < 8 → (t.lg g).down = ((x.lg g).active && !(x.lg g).claimAck))
          ∧ (∀ c b, w.mirror.ctxs = [(c, b)] → .context (Fin.ofNat 64 c) ∉ w.mirror.bad → ∃ z, t.ctxOf 1 c = some z ∧ z.role = .twin ∧ z.blk = b ∧ z.owner = none)
          ∧ (∀ n r a, w.mirror.envs = [(n, (r, a))] → .envelope (Fin.ofNat 4096 n) ∉ w.mirror.bad →
              if (x.env n).ring = [] ∧ (x.env n).acc = none then (t.env n).ring = r ∧ (t.env n).acc = a ∧ t.ssu.twinEnvs = x.ssu.twinEnvs
              else t.ssu.envs = x.ssu.envs ∧ ∃ v, tabFind t.ssu.twinEnvs n = some v ∧ v.ring = r ∧ v.acc = a)
          ∧ (∀ n b d, tabFind w.mirror.xfers n = some (b, d) → tabFind t.twin.xferEnds n = some 0x03#8)
          ∧ t.ctxs = x.ctxs ∧ t.dps = x.dps ∧ t.seqs = x.seqs ∧ x.NocsStand t ∧ t.courier = x.courier ∧ t.ssu = { x.ssu with envs := t.ssu.envs, twinEnvs := t.ssu.twinEnvs })
    ∧ (¬ isOver → Becomes .claimTimeout s x)

/-! ## Firmware -/

/-- R34, R36, R37, R133, R164, R270, R288 to R301, R306, R309, R310, R337, R338: the mailbox. A command ends with its status, its tag and its result arguments,
and raises the interrupt; while one runs another is refused with CAUSE 2; in the wrong STATE it ends with STATE, and while a Keeper it needs
is down, or the boot ROM's halted, it waits. Each command's own effect, and its refusals. LOAD_IMAGE reads its container through Gatehouse NoC port 0,
the first in STATE CHECKING; an error of the read ends it with NOC; once the bytes are there, its end verifies them: the first image starts the
kernel, which an emergency defers, and which reads its configuration; a later one enters the other bank, unless a Keeper still runs there. Log
entries 40, 41 and 42 say what the spec leaves open of the commands, log entry 5 where the bytes come from that the others read. -/
def Obligations.MailboxCommands : Prop :=
  ∀ (tag : Byte) (v : W32) (s : State), s.part.Calm → s.part.shut = false →
    let x := s.part
    let m := x.mb
    let free : Prop := m.busy = false ∧ m.doorbell = none
    let idle : Prop := free ∧ m.keeperUp = 0xF ∧ m.halted = 0
    let runs : Prop := idle ∧ m.st = 3#4
    let answers (status : Byte) (r : List W32) (t : Part) : Prop :=
      t.mb.rspStatus = status ∧ t.mb.rspTag = tag ∧ t.mb.rspDone = true ∧ t.mb.busy = false ∧ t.mb.doorbell = none ∧ t.mb.run = none
        ∧ t.mb.rargs = r ++ List.replicate (8 - r.length) 0 ∧ t.irq.mailbox = true
    let begun (opc : Byte) (t : Part) : Prop := t.mb.busy = true ∧ t.mb.doorbell = none ∧ t.mb.run = some ⟨opc, tag, 0, [], none⟩
    let stand (t : Part) : Prop := t.dps = x.dps ∧ t.seqs = x.seqs ∧ x.NocsStand t ∧ t.ctxs = x.ctxs
    let fits (n : W32) (a : WorkArea) : Prop := 40 ≤ a.len.toNat ∧ n.toNat ≤ 2097152
    let rom : Prop := bitOf m.halted 0 = false
    let loads : Prop := free ∧ (m.st = 1#4 ∧ rom ∨ m.st = 3#4)
    let standN (t : Part) : Prop := t.dps = x.dps ∧ t.seqs = x.seqs ∧ (∀ k, k ≠ 8 → t.noc k = x.noc k) ∧ t.ctxs = x.ctxs
    let quietPort : Prop := (x.noc 8).waiting = [] ∧ (x.noc 8).openReqs = [] ∧ (x.noc 8).merging = false ∧ 1 ≤ (x.noc 8).reqCr
    let asks (t : Part) (a n : Nat) : Prop := quietPort → Emit.nocRead 8 0 (a / 64 * 64) (pieceLen (a / 64 * 64) ((a % 64 + n + 63) / 64 * 64)) ∈ t.out
    let copies (t : Part) (off : W64) (len : W32) (a : WorkArea) : Prop :=
      t.mb.busy = true ∧ t.mb.rspDone = false ∧ t.mb.bankA = m.bankA ∧ t.mb.bankB = m.bankB ∧ t.mb.imgHash = m.imgHash ∧ standN t
        ∧ t.mb.run = some ⟨1, tag, 0, [], some ⟨if len = 0 then some [] else none, off47 a.off, a.len⟩⟩ ∧ (len ≠ 0 → asks t (off47 off).toNat len.toNat)
    let has (c : List Byte) : Prop := ∃ r l, m.run = some r ∧ r.tag = tag ∧ r.load = some l ∧ l.container = some c
    let fails (i : Instr) (status : Byte) : Prop := Acts i s fun t => answers status [] t ∧ stand t ∧ t.groups = x.groups ∧ t.ssu = x.ssu ∧ t.glob.step = x.glob.step
    let n := v.toNat
    (m.busy = true → m.doorbell ≠ some (0x30, tag) → Acts (.traceMask tag v) s fun t => x.Refused t 2 0xD000 true)
    ∧ (idle → m.st = 5#4 → ∀ i ∈ ([.loadImage tag 0 0 ⟨0, 0⟩, .activate tag v, .restartKeeper tag v, .groupForm tag none v, .groupDissolve tag v,
          .spareList tag v none, .calLoad tag v none, .unpark tag v] : List Instr), fails i 3)
    ∧ (m.busy = false → m.st = 3#4 → m.keeperUp = 0 → ∀ i ∈ ([(0x10, .groupForm tag none v), (0x11, .groupDissolve tag v), (0x12, .spareList tag v none),
          (0x20, .calLoad tag v none), (0x30, .traceMask tag v)] : List (Byte × Instr)),
          Acts i.2 s fun t => t.mb.busy = true ∧ t.mb.doorbell = some (i.1, tag) ∧ stand t ∧ t.groups = x.groups ∧ t.ssu = x.ssu ∧ t.gb = x.gb)
    ∧ (runs → fails (.groupForm tag none v) 4 ∧ fails (.calLoad tag v none) 4 ∧ fails (.spareList tag v none) 4)
    ∧ (∀ opc, idle → mbKnown opc = false → fails (.mailboxUnknownCommand opc tag) 1)
    ∧ (idle → m.st ≠ 0#4 → Acts (.traceMask tag v) s fun t => answers 0 [] t ∧ t.gb = { x.gb with mask := v &&& 0x1FE } ∧ stand t)
    ∧ (∀ off len a, loads → ¬ fits len a → fails (.loadImage tag off len a) 2)
    ∧ (∀ off len a, free → m.st = 1#4 → ¬ rom → Acts (.loadImage tag off len a) s fun t =>
        t.mb.busy = true ∧ t.mb.doorbell = some (1, tag) ∧ t.mb.st = 1#4 ∧ t.mb.run = m.run ∧ stand t)
    ∧ (∀ off len a, free → m.st = 1#4 → rom → fits len a → Acts (.loadImage tag off len a) s fun t => copies t off len a ∧ t.mb.st = 2#4 ∧ t.pwr.bootStep = 5)
    ∧ (∀ off len a, free → m.st = 3#4 → fits len a →
        (m.staged = true → fails (.loadImage tag off len a) 3)
        ∧ (m.staged = false → Acts (.loadImage tag off len a) s fun t => copies t off len a ∧ t.mb.st = 3#4))
    ∧ (∀ (i : Byte) r l a len skip n d data, m.run = some r → r.tag = tag → r.load = some l → (x.noc 8).waiting = [] →
        (x.noc 8).openReqs = [(i.toNat, (⟨false, a, len, d, .image skip n, []⟩, len))] → d.length < len → len ≤ d.length + data.length →
        Acts (.nocReadData 8 i data 0) s (fun t => standN t
          ∧ t.mb = { m with run := some { r with load := some { l with container := some (slice (d ++ data.take (len - d.length)) skip n) } } })
        ∧ ∀ e : BitVec 2, e ≠ 0 → Acts (.nocReadData 8 i data e) s fun t => standN t ∧ answers 4 [] t ∧ t.mb.st = (if m.st = 2#4 then 1#4 else m.st)
            ∧ t.pwr.bootStep = if m.st = 2#4 then 4 else x.pwr.bootStep)
    ∧ (∀ (i : Byte) a len skip d data (e : BitVec 2), (x.noc 8).waiting = [] → (x.noc 8).openReqs = [(i.toNat, (⟨false, a, len, d, .config skip, []⟩, len))] →
        d.length < len → len ≤ d.length + data.length → Acts (.nocReadData 8 i data e) s fun t => standN t
          ∧ t.mb = { m with configBytes := some (if e = 0 then slice (d ++ data.take (len - d.length)) skip 65536 else []) })
    ∧ (∀ c, has c → m.st = 2#4 → rom → (verify x.sensed c).1 ≠ 0 → Acts .mailboxCommandEnd s fun t =>
        answers (BitVec.ofNat 8 (verify x.sensed c).1) [] t ∧ t.mb.st = 1#4 ∧ t.mb.bankA = m.bankA ∧ t.pwr.bootStep = 4 ∧ stand t)
    ∧ (∀ c r l, m.run = some r → r.tag = tag → r.load = some l → l.container = some c → m.st = 2#4 → verify x.sensed c = (0, 0) → m.emerg = false → m.halted = 0 →
        x.groups = [] → m.ctlq = [] → m.k1q = [] → m.harbourq = [] → m.traceq = [] → m.harbourLate = none → m.hbLatched = false → m.dropsLate = false → x.gh.roleLate = [] →
        Acts .mailboxCommandEnd s fun t =>
          answers 0 [] t ∧ t.mb.st = 3#4 ∧ t.mb.keeperUp = 0xF ∧ t.mb.bankA = some (imageOf c) ∧ t.mb.imgHash = imageDigest c ∧ t.mb.configBytes = none
            ∧ t.mb.workOff = l.workOff ∧ t.glob.ready = x.glob.ready ∧ t.pwr.bootStep = 8 ∧ standN t ∧ (x.gb.base = 0 → asks t l.workOff.toNat 65536))
    ∧ (∀ c, has c → m.st = 2#4 → rom → verify x.sensed c = (0, 0) → m.emerg = true → Acts .mailboxCommandEnd s fun t =>
        answers 0x0A [] t ∧ t.mb.actPending = true ∧ t.mb.deferred = m.deferred ++ [⟨0xF, true, false, x.now⟩] ∧ t.mb.bankA = some (imageOf c) ∧ stand t)
    ∧ (∀ c, has c → m.st ≠ 2#4 → let r := (verify x.sensed c).1
        (r ≠ 0 → fails .mailboxCommandEnd (BitVec.ofNat 8 r))
        ∧ (r = 0 → Acts .mailboxCommandEnd s fun t => answers 0 [] t ∧ t.mb.imgHash = m.imgHash ∧ t.mb.keeperBank = m.keeperBank ∧ stand t
            ∧ t.mb.target = !(m.keeperBank.getD 0 false) ∧ t.mb.image t.mb.target = some (imageOf c) ∧ t.mb.image (!t.mb.target) = m.image (!t.mb.target)))
    ∧ (∀ r l, m.run = some r → r.load = some l → l.container = none ∨ m.st = 2#4 ∧ ¬ rom → Becomes .mailboxCommandEnd s x)
    ∧ (runs → n = 0 ∨ 15 < n → fails (.activate tag v) 2)
    ∧ (runs → n = 15 → m.layoutDiffers = true → fails (.activate tag v) 0x0B)
    ∧ (runs → n = 15 → m.layoutDiffers = false → m.emerg = false → m.keeperBank = List.replicate 4 (!m.target) → m.restarting = [] →
        Acts (.activate tag v) s fun t => begun 2 t ∧ t.mb.toSwitch = [2, 1, 0] ∧ t.mb.restarting = [(3, (3, true))] ∧ t.mb.keeperUp = 7 ∧ stand t)
    ∧ (runs → 3 < n → m.restarting = [] → fails (.restartKeeper tag v) 2)
    ∧ (runs → n < 4 → m.emerg = false → m.restarting = [] → m.krst.length = 4 → (m.krst.getD n 0).toNat < 255 → Acts (.restartKeeper tag v) s fun t =>
        begun 3 t ∧ t.mb.restarting = [(n, (0, true))] ∧ t.mb.krst.getD n 0 = m.krst.getD n 0 + 1 ∧ bitOf t.mb.keeperUp n = false ∧ stand t)
    ∧ (∀ img k, runs → x.group img.group.toNat = none → img.members ≠ [] → x.overLimit img (bitOf v 0) (bitOf v 1) = false → x.freeSlot = some k → Acts (.groupForm tag (some img) v) s fun t =>
        answers 0 [BitVec.ofNat 32 k] t ∧ stand t ∧ (∀ j, j ≠ img.group.toNat → t.group j = x.group j)
          ∧ t.group img.group.toNat = some (.new img k (bitOf v 0) (img.rankOf x.ownId) (bitOf v 1) (if bitOf v 0 then x.ownId else (img.member 0).ident)))
    ∧ (∀ img, runs → img.members = [] ∨ x.holdsLive img.group.toNat = true → fails (.groupForm tag (some img) v) 2)
    ∧ (∀ img, runs → img.members ≠ [] → x.holdsLive img.group.toNat = false → x.overLimit img (bitOf v 0) (bitOf v 1) = true → fails (.groupForm tag (some img) v) 0x0D)
    ∧ (∀ g, runs → x.group n = some g → Acts (.groupDissolve tag v) s fun t => answers 0 [] t ∧ t.group n = none ∧ (∀ j, j ≠ n → t.group j = x.group j) ∧ stand t)
    ∧ (runs → x.group n = none → fails (.groupDissolve tag v) 2)
    ∧ (∀ g l, runs → x.group n = some g → g.manager = true → l.length ≤ 256 → Acts (.spareList tag v (some l)) s fun t =>
        answers 0 [] t ∧ t.group n = some { g with img := { g.img with spares := l } } ∧ (∀ j, j ≠ n → t.group j = x.group j) ∧ stand t)
    ∧ (∀ g l, runs → x.group n = some g → g.manager = false ∨ 256 < l.length → fails (.spareList tag v (some l)) 2)
    ∧ (∀ es, runs → n + es.length ≤ 65536 → Acts (.calLoad tag v (some es)) s fun t =>
        begun 0x20 t ∧ (∀ i e, es[i]? = some e → tabGet t.ssu.calP (n + i) 0 = Cal.mask e ∧ n + i ∈ t.ssu.calChanged)
          ∧ (∀ i, i < n ∨ n + es.length ≤ i → tabGet t.ssu.calP i 0 = tabGet x.ssu.calP i 0) ∧ t.ssu.cal = x.ssu.cal ∧ stand t)
    ∧ (∀ es, runs → 65536 < n + es.length → fails (.calLoad tag v (some es)) 2)
    ∧ (∀ d, idle → m.st = 4#4 ∧ x.now < m.drainAt + 1000000000 ∨ m.st = 5#4 → d ≠ m.imgHash → fails (.adopt tag d) 0x0C)
    ∧ (idle → m.st = 4#4 ∧ x.now < m.drainAt + 1000000000 ∨ m.st = 5#4 → Acts (.adopt tag m.imgHash) s fun t => answers 0 [] t ∧ t.mb.st = 3#4 ∧ t.mb.hbArmed = true ∧ t.mb.hbLast = x.now ∧ t.mb.parked = m.parked ∧ stand t)
    ∧ (runs → m.parked = true → (∀ q k, (x.seq q).wait ≠ .stepmark k) → Acts (.unpark tag v) s fun t =>
        answers 0 [] t ∧ t.glob.step = v ∧ t.glob.stepTime = x.glob.stepTime ∧ t.mb.parked = false ∧ t.ssu = x.ssu ∧ stand t)
    ∧ (∀ r, m.run = some r → r.tag = tag → r.load = none → m.toSwitch = [] ∨ m.actAsked = false → (∀ k ∈ m.restarting, k.2.2 = false) →
        Acts .mailboxCommandEnd s fun t => answers r.status r.rargs t ∧ stand t)
    ∧ (m.run = none → Becomes .mailboxCommandEnd s x)
    ∧ (∀ r, m.run = some r → r.load = none → (m.toSwitch ≠ [] ∧ m.actAsked = true) ∨ (∃ k ∈ m.restarting, k.2.2 = true) → Becomes .mailboxCommandEnd s x)

/-- R137, R138, R290, R291, R300 to R309: an expired heartbeat drains, and while parked goes to the Harbour; a drain that no step mark ends goes there
after 1 s. A Keeper that misses its check-in or faults is halted for a restart, the third time within 1 s for good with the instance FAILED.
A restart that ends puts it back, in its new bank in an activation, and the next one follows, or the note ACT_DONE. A deferred activation is
cancelled after 30 s, each by its own window. Before its time none of the windows does anything. Log entry 41 says what the spec leaves open of the
firmware, log entry 5 how its writes go out. -/
def Obligations.Keepers : Prop :=
  ∀ (k : Fin 4) (s : State), s.part.Calm → s.part.mb.krst.length = 4 → s.part.mb.emerg = false →
    let x := s.part
    let m := x.mb
    let stand (t : Part) : Prop := t.dps = x.dps ∧ x.NocsStand t ∧ t.groups = x.groups ∧ t.ssu = x.ssu ∧ t.larder = x.larder
    let held : Prop := m.isDeferred k.val = true
    let up : Prop := m.keeperUp = 0xF ∧ m.halted = 0
    let expired : Prop := m.hbArmed = true ∧ m.hbLast + 200000000 ≤ x.now
    let noteOk : Prop := m.noteBase ≠ 0 ∧ (m.noteWr - m.noteRd).toNat + 1 ≤ 2 ^ fld m.noteSize 0 5
    let harbour (t : Part) : Prop :=
      t.mb.st = 5#4 ∧ t.mb.parked = true ∧ t.Noted (m.notePlace m.noteWr.toNat) (noteBytes 10 0 x.glob.step x.now)
        ∧ (∀ q, q < 9 → (x.seq q).st = 1#3 ∨ (x.seq q).st = 2#3 → (t.seq q).st = 5#3 ∧ (t.seq q).wait = .none ∧ (t.seq q).pc = (x.seq q).pc)
        ∧ (∀ q, q < 9 → (x.seq q).st ≠ 1#3 → (x.seq q).st ≠ 2#3 → (t.seq q).st = (x.seq q).st)
    let halts (cause n t0 : Nat) (t : Part) : Prop :=
      bitOf t.mb.keeperUp k.val = false ∧ (∀ i, i < 4 → i ≠ k.val → bitOf t.mb.keeperUp i = bitOf m.keeperUp i) ∧ tabFind t.mb.restarting k.val = some (cause, false)
        ∧ (t.mb.krst.getD k.val 0).toNat = min 255 ((m.krst.getD k.val 0).toNat + 1) ∧ tabFind t.mb.rstWin k.val = some (t0, n) ∧ t.mb.st = m.st ∧ stand t ∧ t.seqs = x.seqs
    let dies (t : Part) : Prop := bitOf t.mb.keeperUp k.val = false ∧ t.mb.st = 6#4 ∧ t.irq.fatal = true ∧ tabFind t.mb.restarting k.val = tabFind m.restarting k.val ∧ stand t
    let isUp : Prop := bitOf m.keeperUp k.val = true
    let still : Prop := ¬ held ∧ m.harbourq = [] ∧ m.halted = 0 ∧ m.ctlq = [] ∧ m.k1q = [] ∧ m.traceq = [] ∧ m.harbourLate = none ∧ m.hbLatched = false
      ∧ m.dropsLate = false ∧ x.gh.roleLate = [] ∧ x.pwr.bootStep ≠ 9 ∧ ∀ g ∈ x.groups, g.2.unsent = []
    let inWin (w : Nat × Nat) : Prop := tabFind m.rstWin k.val = some w ∧ x.now < w.1 + 1000000000
    (expired → m.st = 3#4 → m.parked = false → up → Acts .heartbeatExpiry s fun t =>
        t.mb = { m with hbArmed := false, st := 4, drainAt := m.hbLast + 200000000 } ∧ stand t ∧ t.seqs = x.seqs ∧ t.ctxs = x.ctxs)
    ∧ (expired → m.st = 3#4 → m.parked = true → up → x.groups = [] → x.ctxs = [] → noteOk →
        Acts .heartbeatExpiry s harbour)
    ∧ (expired → m.st = 3#4 → bitOf m.keeperUp 3 = false → Acts .heartbeatExpiry s fun t => t.mb = { m with hbArmed := false, hbLatched := true } ∧ stand t ∧ t.seqs = x.seqs)
    ∧ (expired → m.st ≠ 3#4 → Becomes .heartbeatExpiry s { x with mb := { m with hbArmed := false } })
    ∧ (m.hbArmed = false ∨ x.now < m.hbLast + 200000000 → Becomes .heartbeatExpiry s x)
    ∧ (m.st = 4#4 → m.drainAt + 1000000000 ≤ x.now → m.harbourLate = none → up → x.groups = [] → x.ctxs = [] → noteOk →
        Acts .drainTimeout s harbour)
    ∧ (m.st ≠ 4#4 ∨ x.now < m.drainAt + 1000000000 → Becomes .drainTimeout s x)
    ∧ (isUp → tabFind m.rstWin k.val = none → Acts (.keeperWatchdog k) s (halts 1 1 x.now) ∧ ∀ a pc, Acts (.protectionFault k a pc) s (halts 2 1 x.now))
    ∧ (∀ w, isUp → tabFind m.rstWin k.val = some w → w.1 + 1000000000 ≤ x.now → Acts (.keeperWatchdog k) s (halts 1 1 x.now))
    ∧ (∀ w, isUp → inWin w → w.2 = 1 → Acts (.keeperWatchdog k) s (halts 1 2 w.1) ∧ ∀ a pc, Acts (.protectionFault k a pc) s (halts 2 2 w.1))
    ∧ (∀ w, isUp → inWin w → w.2 = 2 → Acts (.keeperWatchdog k) s dies ∧ ∀ a pc, Acts (.protectionFault k a pc) s dies)
    ∧ (¬ isUp → Becomes (.keeperWatchdog k) s x ∧ ∀ a pc, Becomes (.protectionFault k a pc) s x)
    ∧ (∀ c a, tabFind m.restarting k.val = some (c, a) → c ≠ 3 → still → Acts (.keeperRestartDone k true) s fun t =>
          bitOf t.mb.keeperUp k.val = true ∧ t.mb.restarting = tabErase m.restarting k.val ∧ t.mb.keeperBank = m.keeperBank ∧ t.mb.toSwitch = m.toSwitch ∧ stand t
            ∧ t.seqs = x.seqs ∧ t.ctxs = x.ctxs)
    ∧ (∀ j r, m.restarting = [(k.val, (3, true))] → m.toSwitch = j :: r → j < 4 → still → j ≠ k.val → Acts (.keeperRestartDone k true) s fun t =>
          bitOf t.mb.keeperUp k.val = true ∧ t.mb.keeperBank = m.keeperBank.set k.val m.target ∧ t.mb.toSwitch = r ∧ t.mb.restarting = [(j, (3, m.actAsked))]
            ∧ bitOf t.mb.keeperUp j = false ∧ stand t)
    ∧ (m.restarting = [(k.val, (3, true))] → m.toSwitch = [] → still → (k.val ≠ 1 → bitOf m.keeperUp 1 = true) → noteOk → Acts (.keeperRestartDone k true) s fun t =>
          t.mb.restarting = [] ∧ t.mb.actAsked = false ∧ t.Noted (m.notePlace m.noteWr.toNat) (noteBytes 8 (BitVec.ofNat 16 m.actMask.toNat) 0 x.now)
            ∧ (m.keeperBank.set k.val m.target = List.replicate 4 m.target → ∀ i, m.image m.target = some i → t.mb.imgHash = i.digest) ∧ stand t)
    ∧ (tabFind m.restarting k.val = none ∨ held → Becomes (.keeperRestartDone k true) s x)
    ∧ (∀ d rest, m.deferred = d :: rest → d.since + 30000000000 ≤ x.now → (∀ e ∈ rest, x.now < e.since + 30000000000) → d.kernel = false →
        Acts .activationCancel s fun t =>
          t.mb.deferred = rest ∧ t.mb.actPending = decide (rest ≠ []) ∧ t.mb.restarting = (m.restarting.filter fun r => !(bitOf d.mask r.1 && decide (d.activate = decide (r.2.1 = 3))))
            ∧ t.mb.toSwitch = (if d.activate then [] else m.toSwitch) ∧ t.mb.st = m.st ∧ stand t ∧ t.seqs = x.seqs)
    ∧ (∀ d, m.deferred = [d] → d.since + 30000000000 ≤ x.now → d.kernel = true → Acts .activationCancel s fun t =>
        t.mb.deferred = [] ∧ t.mb.actPending = false ∧ t.mb.st = 1#4 ∧ t.pwr.bootStep = 4 ∧ stand t ∧ t.seqs = x.seqs)
    ∧ ((∀ d ∈ m.deferred, x.now < d.since + 30000000000) → Becomes .activationCancel s x)

/-! ## Power, the time base, resets and start-up, the test port -/

/-- R62 to R66, R313 to R318, R320, R336, R338: a rise of the power inputs applies its step at once, with at most the quads that the step allows on
and the throttle line up; a fall opens the release window, and at its end the step of the inputs applies. A sample of the time base steers the
local time, which never goes back, and ends an AON cycle; without the base the time runs free. A cycle takes start-up through its steps 1, 2 and 5,
the last once the container has come, while the Keeper that the boot ROM runs on is not halted (R327);
whether step 2 finds the firmware complex's SRAM good is not the block's to say (log entry 20). An idle domain is gated, a lane group asks for
low power, but neither while a trigger came within its hold time; a domain that has woken is awake. Corners of resets, of the hold and of power are
log entries 36, 37 and 38, and the firmware's writes log entry 5. -/
def Obligations.PowerAndTime : Prop :=
  ∀ (v : PwrIn) (d : Dom) (tb : W64) (s : State), s.part.Calm →
    let x := s.part
    let p := x.pwr
    let one : Prop := p.inputs.changes v = [v] ∧ p.release = none ∧ x.mb.restarting = [] ∧ x.mb.toSwitch = [] ∧ x.mb.deferred = []
    let applied (n : Nat) (t : Part) : Prop :=
      t.pwr.stepEff = n ∧ t.pwr.throttled = decide (0 < n) ∧ t.pwr.release = none ∧ ((List.range 16).filter t.pwr.quadOn).length ≤ quadCap n
        ∧ (∀ e, isQuad e = false → (e ∈ t.pwr.awake ↔ e ∈ p.awake)) ∧ (∀ e, isQuad e = false → e ≠ .fwc → (e ∈ t.pwr.waking ↔ e ∈ p.waking))
    let stand (t : Part) : Prop := x.UnitsStand t ∧ t.ctxs = x.ctxs ∧ t.groups = x.groups ∧ t.gh = x.gh ∧ t.larder = x.larder ∧ t.twin = x.twin
    let T := x.glob.time
    let noBlocks : Prop := p.bootStep ≠ 8 ∨ x.mb.configBytes = none ∨ x.mb.halted ≠ 0
    let cycle (time : Nat) (slip hold : Bool) (t : Part) : Prop :=
      t.glob = { x.glob with time := time, tbValid := true, tbSlip := x.glob.tbSlip || slip, tbHold := hold, stepSrcEff := x.glob.stepSrc, acted := t.glob.acted,
                             evSeq := x.glob.evSeq + 1 }
        ∧ T ≤ t.glob.time ∧ t.pwr = { p with throttleNs := if 0 < p.stepEff then p.throttleNs + (time - T) else p.throttleNs, bootStep := t.pwr.bootStep }
        ∧ (p.bootStep = 1 ∨ p.bootStep = 5 ∧ x.mb.copied = true ∧ bitOf x.mb.halted 0 = false → t.pwr.bootStep = p.bootStep + 1)
        ∧ (p.bootStep ≠ 1 → p.bootStep ≠ 5 ∨ x.mb.copied = false ∨ bitOf x.mb.halted 0 = true → p.bootStep ≠ 2 ∨ x.mb.st ≠ 0 ∨ bitOf x.mb.halted 0 = true →
            t.pwr.bootStep = p.bootStep)
        ∧ (p.bootStep = 2 → x.mb.st = 0 → bitOf x.mb.halted 0 = false → t.pwr.bootStep = 3 ∧ t.mb = x.mb ∨ t.pwr.bootStep = 2 ∧ t.mb = { x.mb with st := 6 } ∧ t.irq.fatal = true)
        ∧ (p.bootStep ≠ 2 ∨ x.mb.st ≠ 0 ∨ bitOf x.mb.halted 0 = true → t.irq = { x.irq with pin := t.irq.pin }) ∧ stand t ∧ (x.irqPending ≠ 0 → t.irq.pin = true)
    (one → p.inputs.step < v.step → Acts (.powerLineChange v) s fun t =>
        applied v.step t ∧ t.pwr.inputs = v ∧ t.pwr.ack = false ∧ t.irq = { x.irq with pwr := true } ∧ (v.emergency = true → t.mb.emerg = true) ∧ stand t)
    ∧ (one → v.step < p.inputs.step → Acts (.powerLineChange v) s fun t =>
        t.pwr.inputs = v ∧ t.pwr.ack = false ∧ t.pwr.release = some x.now ∧ t.pwr.stepEff = p.stepEff ∧ t.pwr.throttled = p.throttled
          ∧ t.pwr.awake = p.awake ∧ t.pwr.waitQuads = p.waitQuads ∧ t.irq = { x.irq with pwr := true } ∧ stand t)
    ∧ (p.release = none → Becomes (.powerLineChange p.inputs) s x)
    ∧ Becomes .powerResponseApplied s { x with pwr := { p with ack := true } }
    ∧ (∀ t0, p.release = some t0 → t0 + p.releaseTmo.toNat ≤ x.now → Acts .powerReleaseExpiry s fun t => applied p.inputs.step t ∧ t.pwr.inputs = p.inputs ∧ stand t)
    ∧ ((∀ t0, p.release = some t0 → x.now < t0 + p.releaseTmo.toNat) → Becomes .powerReleaseExpiry s x)
    ∧ (noBlocks → x.glob.tbHold = true → tb.toNat < T → Acts (.timeBaseSample tb) s (cycle T false true))
    ∧ (noBlocks → (x.glob.tbHold = false ∨ T ≤ tb.toNat) →
        (T + 1005 < tb.toNat → Acts (.timeBaseSample tb) s (cycle tb.toNat true false))
        ∧ (tb.toNat + 995 < T → Acts (.timeBaseSample tb) s (cycle T true true))
        ∧ (T + 5 < tb.toNat → tb.toNat ≤ T + 1005 → Acts (.timeBaseSample tb) s (cycle (T + 6) false false))
        ∧ (tb.toNat < T + 5 → T ≤ tb.toNat + 995 → Acts (.timeBaseSample tb) s (cycle (T + 4) false false))
        ∧ (tb.toNat = T + 5 → Acts (.timeBaseSample tb) s (cycle (T + 5) false false)))
    ∧ (noBlocks → p.bootStep ≠ 1 → p.bootStep ≠ 2 → p.bootStep ≠ 5 → Acts .tbValidLoss s fun t =>
        t.glob = { x.glob with time := T + 5, tbValid := false, tbLost := true, tbHold := false, stepSrcEff := x.glob.stepSrc, acted := t.glob.acted, evSeq := x.glob.evSeq + 1 }
          ∧ t.pwr = { p with throttleNs := if 0 < p.stepEff then p.throttleNs + 5 else p.throttleNs } ∧ stand t)
    ∧ (∀ g, d = .lane g → x.domIdle d = true → x.triggered d = false → Acts (.domainIdleGate d) s fun t =>
        x.LaneBecame { t with out := x.out } g.val { x.lg g.val with lpReq := true } ∧ t.out = .lpReq g.val :: x.out)
    ∧ ((∀ g, d ≠ .lane g) → x.domIdle d = true → x.triggered d = false → p.waitQuads = [] → Becomes (.domainIdleGate d) s { x with pwr := { p with awake := p.awake.filter fun e => e ≠ d } })
    ∧ (x.domIdle d = false → Becomes (.domainIdleGate d) s x)
    ∧ (∀ h t0, d.hold p = some h → tabFind p.trigAt d.num = some t0 → x.now < t0 + h.toNat → Becomes (.domainIdleGate d) s x)
    ∧ (d ∈ p.waking → Becomes (.domainWakeDone d) s
        { x with pwr := { p with waking := p.waking.filter fun e => e ≠ d, awake := p.awake ++ [d], wakeCnt := satAdd p.wakeCnt 1 } })
    ∧ (d ∉ p.waking → Becomes (.domainWakeDone d) s x)

/-- R291, R319 to R321, R323 to R328, R333: a cold reset loses everything but the fuses, which it senses anew; a warm reset clears every domain
but the always-on one, the Larder with them, keeps the time, the power inputs and limits, the hardware queues and the sensed fuses, counts itself and leaves
the window shut until STEP reads 2; its register needs the KEY. Which state a warm reset keeps beside what R319 names is log entry 36. The Larder's self-test
leaves zeros and WAIT_IMAGE, or FAILED. Without any configuration block every block is at its default and marked absent, and the instance is READY
without lanes and joins. When the lane window ends, lane groups not in service are down and the joins follow, once K0 runs; a join that is
not answered in 100 ms is given up, and with the last the instance is READY. -/
def Obligations.ResetsAndStartup : Prop :=
  ∀ (v : W32) (group : W16) (s : State), s.part.Calm →
    let x := s.part
    let p := x.pwr
    let cold (i : Instr) (c : BitVec 4) : Prop :=
      exec i s = .next { s with part := { Part.reset s.fuses with pwr := { Pwr.reset with cause := c }, out := x.out, nextId := x.nextId, freeCtr := x.freeCtr }, larderRam := [] }
    let warm (i : Instr) (c : BitVec 4) : Prop := ∃ u, exec i s = .next u ∧ u.pending = s.pending ∧ u.fuses = s.fuses ∧ u.larderRam = [] ∧
      let t := u.part
      t.pwr.cause = c ∧ t.pwr.warmCnt.toNat = min 255 (p.warmCnt.toNat + 1) ∧ t.pwr.bootStep = 1 ∧ t.pwr.inputs = p.inputs ∧ t.pwr.stepEff = p.stepEff
        ∧ t.pwr.release = p.release ∧ t.mb.k1q = x.mb.k1q ∧ t.mb.ctlq = x.mb.ctlq ∧ t.mb.traceq = x.mb.traceq ∧ t.shut = true
        ∧ t.glob = { Glob.reset with time := x.glob.time, acted := t.glob.acted, evSeq := x.eventSeq + 1, tbHold := x.glob.tbHold }
        ∧ t.sensed = x.sensed ∧ t.dps = [] ∧ t.seqs = [] ∧ t.ctxs = [] ∧ t.groups = [] ∧ t.gh = Gh.reset ∧ t.ssu = Ssu.reset ∧ t.larder = Larder.reset
        ∧ t.irq = Irq.reset ∧ t.twin = Twin.reset ∧ t.mb.st = 0#4 ∧ t.mb.emerg = x.mb.emerg
    let inServ (g : Nat) : Bool := (x.lg g).inService
    cold .powerOnReset 1 ∧ cold .packageReset 2 ∧ cold (.testReset true) 8
    ∧ warm (.testReset false) 8
    ∧ (x.shut = false → fld v 16 16 = 0xC1A0 → bitOf v 0 = true → warm (.softwareWarmReset v) 4)
    ∧ (x.shut = false → fld v 16 16 = 0xC1A0 → bitOf v 0 = false → Becomes (.softwareWarmReset v) s x)
    ∧ (x.shut = false → fld v 16 16 ≠ 0xC1A0 → Acts (.softwareWarmReset v) s fun t => x.Refused t 3 0xD31C true)
    ∧ (x.shut = true → Becomes (.softwareWarmReset v) s x)
    ∧ (p.bootStep = 3 → x.mb.st = 0#4 →
        exec (.larderBistDone true) s = .next { s with part := { x with pwr := { p with bootStep := 4 }, mb := { x.mb with st := 1 } }.finish, larderRam := [] }
        ∧ ∃ t, exec (.larderBistDone false) s = .next t ∧ t.larderRam = [] ∧ t.part.mb = { x.mb with st := 6 } ∧ t.part.irq = { x.irq with fatal := true } ∧ t.part.pwr = p)
    ∧ (p.bootStep ≠ 3 → Becomes (.larderBistDone true) s x ∧ Becomes (.larderBistDone false) s x)
    ∧ (p.bootStep = 9 → x.mb.runs 0 = true → p.laneAt + p.laneTmo.toNat ≤ x.now → p.joins = [] → x.groups = [] → Acts .laneBringupTimeout s fun t =>
        t.pwr.bootStep = 11 ∧ t.glob.ready = true ∧ (∀ g, g < 8 → bitOf x.gh.lgEn g = true → inServ g = false → (t.lg g).down = true ∧ bitOf t.irq.ghDown g = true)
          ∧ (∀ g, g < 8 → bitOf x.gh.lgEn g = false ∨ inServ g = true → (t.lg g).down = (x.lg g).down)
          ∧ t.pwr.laneFail = (p.laneFail || (List.range 8).any fun g => bitOf x.gh.lgEn g && !inServ g)
          ∧ (inServ 0 = false → inServ 1 = false → bitOf x.gh.lgEn 0 = true → bitOf x.gh.lgEn 1 = true → t.courier.en = false))
    ∧ (p.bootStep ≠ 9 ∨ x.now < p.laneAt + p.laneTmo.toNat ∨ x.mb.runs 0 = false → Becomes .laneBringupTimeout s x)
    ∧ (∀ tb : W64, p.bootStep = 8 → x.mb.configBytes = some [] → x.mb.halted = 0 → p.joins = [] → Acts (.timeBaseSample tb) s fun t =>
        t.pwr.bootStep = 11 ∧ t.glob.ready = true ∧ t.pwr.identMissing = true ∧ t.pwr.cfgDefaulted = p.cfgDefaulted ||| 0xFFE ∧ t.pwr.cfgAbsent = p.cfgAbsent ||| 0xFFE
          ∧ t.pwr.joinFail = p.joinFail ∧ t.gh = x.gh ∧ t.dps = x.dps ∧ t.seqs = x.seqs ∧ t.groups = x.groups)
    ∧ (∀ j, p.bootStep = 10 → p.joins = [j] → j.1 = group → j.2.2.2 + 100000000 ≤ x.now → Becomes (.joinTimeout group) s
        { x with pwr := { p with joinFail := true, joins := [], bootStep := 11 }, glob := { x.glob with ready := true } })
    ∧ (∀ j, p.bootStep = 10 → j ∈ p.joins → j.1 = group → p.joins.find? (fun k => decide (k.1 = group)) = some j → j.2.2.2 + 100000000 ≤ x.now → p.joins.any (fun k => k ≠ j) = true →
        Becomes (.joinTimeout group) s { x with pwr := { p with joinFail := true, joins := p.joins.filter fun k => k ≠ j } })
    ∧ (p.bootStep ≠ 10 ∨ (∀ j ∈ p.joins, j.1 ≠ group) → Becomes (.joinTimeout group) s x)

/-- R27, R67, R68, R313, R321, R327, R328, R340: the test port. IDCODE, BYPASS and FUSE_READ shift their bits out; REG_ACCESS reads and writes a register;
LARDER_ACCESS writes one line of the Larder and no other byte, or reads it, the words of a Spool and the units of a chunk, a deposit or a message that
stand there as well, and wakes the half that holds it; FWC_CTRL halts and resumes Keepers, and a Keeper that resumes takes up what waited for it; FUSE_PROG blows a fuse with the supply on and no
other; BIST_RUN leaves zeros when told to go, in the Spools and in live buffers too. An access to a line beyond 786,431 is not completed and a fuse beyond 2,047 is not blown
(log entry 4); the registers an access wakes a domain for are log entry 39's reading. -/
def Obligations.TestPort : Prop :=
  ∀ (v : W32) (line : BitVec 20) (data : BitVec 512) (n : BitVec 12) (s : State), s.part.Calm →
    let x := s.part
    let bits (k w : Nat) : List Bool := (List.range k).map w.testBit
    let shifts (l : List Bool) : Part := { x with out := .testOut l :: x.out }
    Becomes .idcode s (shifts (bits 32 0x0A570D3F))
    ∧ (∀ c b, testCode c = false → Becomes (.bypass c b) s (shifts [b]))
    ∧ Becomes .fuseRead s (shifts (bits 2048 s.fuses.toNat))
    ∧ (x.shut = false → Acts (.regAccess true 0x124 v) s fun t => t.glob.scratch = v ∧ t = { x with glob := { x.glob with scratch := v, acted := t.glob.acted, evSeq := t.glob.evSeq }, out := t.out }
        ∧ t.out = .testOut ([true] ++ bits 20 0x124 ++ bits 32 v.toNat ++ [true, false]) :: x.out)
    ∧ (Acts (.regAccess false 0x124 v) s fun t => t.glob.rdata = x.glob.scratch ∧ t = { x with glob := { x.glob with rdata := x.glob.scratch, acted := t.glob.acted, evSeq := t.glob.evSeq }, out := t.out }
        ∧ t.out = .testOut ([false] ++ bits 20 0x124 ++ bits 32 x.glob.scratch.toNat ++ [true, false]) :: x.out)
    ∧ (line.toNat < 786432 → Memory.wf s.larderRam = true → ∃ t, exec (.larderAccess true line data) s = .next t ∧ t.pending = s.pending ∧ t.fuses = s.fuses
        ∧ (∀ i, i < 64 → Memory.read t.larderRam (line.toNat * 64 + i) = BitVec.ofNat 8 (fld data (8 * i) 8))
        ∧ (∀ a, a < line.toNat * 64 ∨ line.toNat * 64 + 64 ≤ a → Memory.read t.larderRam a = Memory.read s.larderRam a)
        ∧ (x.spoolAt line.toNat = none → x.bufAt line.toNat = none →
            t.part = { x with pwr := x.pwr.wake x.now (.larder (bankHalf (lineBank line.toNat))), out := t.part.out, glob := t.part.glob })
        ∧ (∀ q i, x.spoolAt line.toNat = some (q, i) → (∀ k, k ≠ q → t.part.seq k = x.seq k)
            ∧ t.part.seq q = { x.seq q with spool := (t.part.seq q).spool } ∧ (t.part.seq q).spool.length = (x.seq q).spool.length
            ∧ ∀ j, j < (x.seq q).spool.length → (t.part.seq q).spool[j]? =
                if i ≤ j ∧ j < i + 8 then some (BitVec.ofNat 64 (fld data (64 * (j - i)) 64)) else (x.seq q).spool[j]?)
        ∧ (∀ b o k y d, x.spoolAt line.toNat = none → x.bufAt line.toNat = some (b, o) → x.wss = [(k, y)] → y.deposits = [d] → d.buf = some b → d.keepBuf = none →
            t.part.wss = [(k, { y with deposits := [{ d with units := rereadUnits d.units (layLine (unitsBytes d.units) o (toBytes 64 data.toNat)) }] })]
              ∧ t.part.seqs = x.seqs)
        ∧ x.Stamped t.part)
    ∧ (line.toNat < 786432 → ∃ t w, exec (.larderAccess false line data) s = .next t ∧ t.larderRam = s.larderRam ∧ t.fuses = s.fuses
        ∧ (∀ i, i < 64 → (∀ q n, x.spoolAt line.toNat = some (q, n) → (x.seq q).spool.length ≤ n + i / 8) →
            (∀ b o bs, x.spoolAt line.toNat = none → x.bufAt line.toNat = some (b, o) → x.bufImages.find? (fun k => decide (k.1 = b)) = some (b, bs) → bs.length ≤ o + i) →
            w / 256 ^ i % 256 = (Memory.read s.larderRam (line.toNat * 64 + i)).toNat)
        ∧ (∀ q n k v, x.spoolAt line.toNat = some (q, n) → k < 8 → (x.seq q).spool[n + k]? = some v → fld (BitVec.ofNat 512 w) (64 * k) 64 = v.toNat)
        ∧ (∀ b o bs i v, x.spoolAt line.toNat = none → x.bufAt line.toNat = some (b, o) → x.bufImages.find? (fun k => decide (k.1 = b)) = some (b, bs) → i < 64 →
            bs[o + i]? = some v → w / 256 ^ i % 256 = v.toNat)
        ∧ t.part.seqs = x.seqs ∧ t.part.out = .testOut ([false] ++ bits 20 line.toNat ++ bits 512 w ++ [true, false]) :: x.out)
    ∧ (∀ w, 786432 ≤ line.toNat → Becomes (.larderAccess w line data) s (shifts ([w] ++ bits 20 line.toNat ++ bits 512 data.toNat ++ [false, false])))
    ∧ (∀ h r : BitVec 4, r &&& x.mb.halted = 0 → Acts (.fwcCtrl h r) s fun t => t.mb = { x.mb with halted := (x.mb.halted ||| h) &&& ~~~r } ∧ t.dps = x.dps ∧ t.seqs = x.seqs)
    ∧ (x.mb.halted = 8 → bitOf x.mb.keeperUp 3 = true → x.mb.traceq = [] → x.mb.hbLatched = false → x.gb.staged = [] → Acts (.fwcCtrl 0 8) s fun t =>
        t.mb = { x.mb with halted := 0 } ∧ t.gb = x.gb ∧ t.dps = x.dps ∧ t.seqs = x.seqs)
    ∧ (∀ a src ev arg, x.mb.halted = 2 → bitOf x.mb.keeperUp 1 = true → x.mb.st = 3#4 → x.mb.k1q = [(a, src, ev, arg)] → a ≠ 0#8 → x.mb.harbourq = [] → x.mb.harbourLate = none →
        x.mb.noteBase ≠ 0 → (x.mb.noteWr - x.mb.noteRd).toNat ≠ 2 ^ fld x.mb.noteSize 0 5 → Acts (.fwcCtrl 0 2) s fun t =>
          t.mb = { x.mb with halted := 0, k1q := [], noteWr := x.mb.noteWr + 1 } ∧ t.dps = x.dps ∧ t.seqs = x.seqs
            ∧ t.Noted (x.mb.notePlace x.mb.noteWr.toNat) (noteBytes a (BitVec.ofNat 16 (src.toNat + ev.toNat * 256)) arg x.now))
    ∧ (∀ (off : BitVec 20) r, x.shut = false → x.regRead (off.toNat / 4 * 4) = some r → domOfOff (off.toNat / 4 * 4) = none → Acts (.regAccess false off v) s fun t =>
        t.glob.rdata = r ∧ t.dps = x.dps ∧ t.pwr = x.pwr ∧ t.out = .testOut ([false] ++ bits 20 off.toNat ++ bits 32 r.toNat ++ [true, false]) :: x.out)
    ∧ (∀ (off : BitVec 20), x.shut = false → (x.regRead (off.toNat / 4 * 4)) = none → (∀ d, domOfOff (off.toNat / 4 * 4) = some d → d ∈ x.pwr.awake) →
        Acts (.regAccess true off v) s (fun t => x.UnitsStand t ∧ t.glob.accessErr = true)
        ∧ Acts (.regAccess false off v) s fun t => x.UnitsStand t ∧ t.glob.rdata = 0)
    ∧ (∀ k < 64, x.shut = false → Acts (.regAccess true (BitVec.ofNat 20 (0x4070 + 0x100 * k)) v) s fun t =>
        (t.dp k).ctx0 = { (x.dp k).ctx0 with pitch := v &&& 0xFFFFFF } ∧ (∀ j, j ≠ k → t.dp j = x.dp j) ∧ t.seqs = x.seqs ∧ t.nocs = x.nocs
          ∧ (quadOf k ∈ t.pwr.awake ∨ quadOf k ∈ t.pwr.waking ∨ k / 4 ∈ t.pwr.waitQuads))
    ∧ (x.shut = false → Acts (.regAccess true 0xA024 v) s fun t =>
        t.gh = { x.gh with ackTmo := v } ∧ (Dom.gh ∈ t.pwr.awake ∨ Dom.gh ∈ t.pwr.waking) ∧ t.dps = x.dps ∧ t.seqs = x.seqs)
    ∧ (n.toNat < 2048 → exec (.fuseProg n false) s = .next { s with part := x.finish })
    ∧ (n.toNat < 2048 → ∃ t, exec (.fuseProg n true) s = .next t ∧ t.part = x.finish ∧ t.larderRam = s.larderRam ∧ bitOf t.fuses n.toNat = true
        ∧ ∀ i, i ≠ n.toNat → bitOf t.fuses i = bitOf s.fuses i)
    ∧ (∀ b, 2048 ≤ n.toNat → exec (.fuseProg n b) s = .next { s with part := x.finish })
    ∧ (∀ g ok, ∃ t, exec (.bistRun g ok) s = .next t ∧ t.pending = s.pending ∧ t.larderRam = (if g then [] else s.larderRam) ∧ t.fuses = s.fuses
        ∧ t.part.out = .testOut [g, ok] :: x.out
        ∧ (∀ q, q < 9 → (t.part.seq q).spool.length = (x.seq q).spool.length ∧ (g = true → ∀ w ∈ (t.part.seq q).spool, w = 0) ∧ (g = false → t.part.seq q = x.seq q))
        ∧ (g = true → ∀ k d b, d ∈ (t.part.ws k).deposits → d.buf = some b → (tabFind x.larder.bufs b).isSome = true → ∀ u ∈ d.units, ∀ e ∈ u.els, e = 0)
        ∧ (∀ h : Fin 2, Dom.larder h ∈ t.part.pwr.awake ∨ Dom.larder h ∈ t.part.pwr.waking) ∧ t.part.dps = x.dps ∧ (g = false ∨ x.larder.bufs = [] → t.part.gh = x.gh))

/-- R64, R212, R253, R269, R293, R294, R303, R306, R318, R320, R327, R336: step marks, the source of steps, resets, start-up and the test port complete, in every
state: each command answers a next state with the queue behind it standing and its effect done. A step mark that is the next one brings its
step into force in an instance that holds no group and no held message and is not draining.
The mailbox's commands, the Keepers' windows, power, start-up and what ends a message, a resynchronisation or a word of no opcode complete in every
state in which nothing else waits to go on and each one's own condition holds.
R30, R41, R42, R48, R53, R55, R56, R163, R349: so do a descriptor's issue and start, an accumulator row and an operand row, the end of a fence, a Larder
request, and what the PCS tells of its link. The mailbox rows are as log entries 40 and 42 have them, the test port as log entry 39 has it. -/
def Obligations.OtherCommandsComplete : Prop :=
  (∀ (q : Fin 9) (w : W64) (v : W32) (s : State),
    let p := s.part
    let free : Prop := p.Calm ∧ p.groups = [] ∧ p.gh.helds = [] ∧ p.mb.st ≠ 4#4
    let m : W32 := BitVec.ofNat 32 (fld w 18 32 + ((p.seq q.val).reg (IW.ga w)).toNat)
    (p.Issues q.val w → IW.opc w = 0x1A → IW.gb w = 0 → IW.gc w = 0 → fld w 50 14 = 0 →
        (p.glob.stepSrcEff.toNat ≠ q.val → (p.glob.step - m).toNat < 2 ^ 31 → ∃ t, exec (.stepmark q) s = .next t ∧ t.pending = s.pending
          ∧ (t.part.seq q.val).st = 1#3 ∧ (t.part.seq q.val).pc = (p.seq q.val).pc + 1)
        ∧ (p.glob.stepSrcEff.toNat = q.val → m = p.glob.step + 1 → free → ∃ t, exec (.stepmark q) s = .next t ∧ t.pending = s.pending
          ∧ t.part.glob.step = m ∧ (t.part.seq q.val).pc = (p.seq q.val).pc + 1))
    ∧ (p.shut = false → p.glob.stepSrcEff = 15#4 → v = p.glob.step + 1 → free → ∃ t, exec (.hostStepmark v) s = .next t ∧ t.pending = s.pending ∧ t.part.glob.step = v)
    ∧ (p.shut = false → fld v 0 4 < 9 ∨ fld v 0 4 = 15 → ∃ t, exec (.stepSourceWrite v) s = .next t ∧ t.pending = s.pending
        ∧ t.part.glob.stepSrc = BitVec.ofNat 4 (fld v 0 4) ∧ t.part.glob.step = p.glob.step)
    ∧ (∃ t, exec .powerOnReset s = .next t ∧ t.pending = s.pending ∧ t.part.pwr.cause = 1 ∧ t.part.pwr.bootStep = 1)
    ∧ (∃ t, exec .packageReset s = .next t ∧ t.pending = s.pending ∧ t.part.pwr.cause = 2 ∧ t.part.pwr.bootStep = 1)
    ∧ (∀ c, ∃ t, exec (.testReset c) s = .next t ∧ t.pending = s.pending ∧ t.part.pwr.cause = 8 ∧ t.part.seqs = [] ∧ t.part.dps = [])
    ∧ (p.shut = false → fld v 16 16 = 0xC1A0 → bitOf v 0 = true → ∃ t, exec (.softwareWarmReset v) s = .next t ∧ t.pending = s.pending ∧ t.part.pwr.cause = 4
        ∧ t.part.pwr.bootStep = 1 ∧ t.larderRam = [])
    ∧ (p.pwr.bootStep = 3 → p.mb.st = 0#4 → ∃ t, exec (.larderBistDone true) s = .next t ∧ t.pending = s.pending ∧ t.larderRam = [] ∧ t.part.mb.st = 1#4)
    ∧ (∀ tb : W64, p.pwr.bootStep ≠ 8 → ∃ t, exec (.timeBaseSample tb) s = .next t ∧ t.pending = s.pending ∧ t.part.glob.tbValid = true ∧ p.glob.time ≤ t.part.glob.time)
    ∧ (p.pwr.bootStep ≠ 8 → ∃ t, exec .tbValidLoss s = .next t ∧ t.pending = s.pending ∧ t.part.glob.tbLost = true ∧ t.part.glob.time = p.glob.time + 5)
    ∧ (∃ t, exec .powerResponseApplied s = .next t ∧ t.pending = s.pending ∧ t.part.pwr.ack = true)
    ∧ (∀ d, (∀ g, d ≠ .lane g) → p.domIdle d = true → p.triggered d = false → p.pwr.waitQuads = [] → ∃ t, exec (.domainIdleGate d) s = .next t ∧ t.pending = s.pending ∧ d ∉ t.part.pwr.awake)
    ∧ (∀ d, p.Calm → d ∈ p.pwr.waking → ∃ t, exec (.domainWakeDone d) s = .next t ∧ t.pending = s.pending ∧ d ∈ t.part.pwr.awake ∧ d ∉ t.part.pwr.waking)
    ∧ (∃ t, exec .idcode s = .next t ∧ t.pending = s.pending ∧ t.part.out = .testOut ((List.range 32).map (0x0A570D3F : Nat).testBit) :: p.out)
    ∧ (∀ c b, testCode c = false → ∃ t, exec (.bypass c b) s = .next t ∧ t.pending = s.pending ∧ t.part.out = .testOut [b] :: p.out)
    ∧ (p.Calm → p.shut = false → ∃ t, exec (.regAccess true 0x124 v) s = .next t ∧ t.pending = s.pending ∧ t.part.glob.scratch = v)
    ∧ (∀ wr (line : BitVec 20) data, ∃ t, exec (.larderAccess wr line data) s = .next t ∧ t.pending = s.pending ∧ t.fuses = s.fuses
        ∧ (wr = false ∨ 786432 ≤ line.toNat → t.larderRam = s.larderRam))
    ∧ (∀ h r : BitVec 4, p.Calm → r &&& p.mb.halted = 0 → ∃ t, exec (.fwcCtrl h r) s = .next t ∧ t.pending = s.pending ∧ t.part.mb.halted = (p.mb.halted ||| h) &&& ~~~r)
    ∧ (∃ t, exec .fuseRead s = .next t ∧ t.pending = s.pending ∧ t.fuses = s.fuses ∧ t.part.out = .testOut ((List.range 2048).map s.fuses.toNat.testBit) :: p.out)
    ∧ (∀ (n : BitVec 12) sup, ∃ t, exec (.fuseProg n sup) s = .next t ∧ t.pending = s.pending ∧ (sup = true → n.toNat < 2048 → bitOf t.fuses n.toNat = true)
        ∧ (sup = false ∨ 2048 ≤ n.toNat → t.fuses = s.fuses))
    ∧ (∀ g ok, ∃ t, exec (.bistRun g ok) s = .next t ∧ t.pending = s.pending ∧ t.larderRam = (if g then [] else s.larderRam) ∧ t.part.out = .testOut [g, ok] :: p.out))
  ∧ (∀ (k : Fin 4) (tag : Byte) (v : W32) (s : State), s.part.Calm → s.part.shut = false →
    let p := s.part
    let m := p.mb
    let n := v.toNat
    let idle : Prop := m.busy = false ∧ m.doorbell = none ∧ m.keeperUp = 0xF ∧ m.halted = 0
    let runs : Prop := idle ∧ m.st = 3#4
    let ended (t : State) : Prop := t.part.mb.rspStatus = 0 ∧ t.part.mb.rspTag = tag ∧ t.part.mb.rspDone = true ∧ t.part.mb.busy = false
    let begun (opc : Byte) (t : State) : Prop := t.part.mb.busy = true ∧ t.part.mb.run = some ⟨opc, tag, 0, [], none⟩
    let up : Prop := m.emerg = false ∧ m.ctlq = [] ∧ m.k1q = [] ∧ m.traceq = [] ∧ m.harbourLate = none ∧ m.hbLatched = false ∧ m.dropsLate = false ∧ p.gh.roleLate = []
    let noteOk : Prop := m.noteBase ≠ 0 ∧ (m.noteWr - m.noteRd).toNat + 1 ≤ 2 ^ fld m.noteSize 0 5
    (∀ off len a, runs → m.staged = false → 40 ≤ a.len.toNat → len.toNat ≤ 2097152 →
        ∃ t, exec (.loadImage tag off len a) s = .next t ∧ t.pending = s.pending ∧ t.part.mb.busy = true
          ∧ t.part.mb.run = some ⟨1, tag, 0, [], some ⟨if len = 0 then some [] else none, off47 a.off, a.len⟩⟩)
    ∧ (runs → n = 15 → m.layoutDiffers = false → m.emerg = false → m.keeperBank = List.replicate 4 (!m.target) → m.restarting = [] →
        ∃ t, exec (.activate tag v) s = .next t ∧ t.pending = s.pending ∧ begun 2 t ∧ t.part.mb.toSwitch = [2, 1, 0])
    ∧ (runs → n < 4 → m.emerg = false → m.restarting = [] → ∃ t, exec (.restartKeeper tag v) s = .next t ∧ t.pending = s.pending ∧ begun 3 t
        ∧ bitOf t.part.mb.keeperUp n = false)
    ∧ (∀ img, runs → p.group img.group.toNat = none → img.members ≠ [] → p.overLimit img (bitOf v 0) (bitOf v 1) = false →
        ∃ t, exec (.groupForm tag (some img) v) s = .next t ∧ t.pending = s.pending ∧ ended t ∧ (t.part.group img.group.toNat).isSome = true)
    ∧ (runs → (p.group n).isSome = true → ∃ t, exec (.groupDissolve tag v) s = .next t ∧ t.pending = s.pending ∧ ended t ∧ t.part.group n = none)
    ∧ (∀ g l, runs → p.group n = some g → g.manager = true → l.length ≤ 256 →
        ∃ t, exec (.spareList tag v (some l)) s = .next t ∧ t.pending = s.pending ∧ ended t ∧ ∃ u, t.part.group n = some u ∧ u.img.spares = l)
    ∧ (∀ es, runs → n + es.length ≤ 65536 → ∃ t, exec (.calLoad tag v (some es)) s = .next t ∧ t.pending = s.pending ∧ begun 0x20 t
        ∧ ∀ i e, es[i]? = some e → tabGet t.part.ssu.calP (n + i) 0 = Cal.mask e)
    ∧ (idle → m.st ≠ 0#4 → ∃ t, exec (.traceMask tag v) s = .next t ∧ t.pending = s.pending ∧ ended t ∧ t.part.gb.mask = v &&& 0x1FE)
    ∧ (idle → m.st = 4#4 ∨ m.st = 5#4 → ∃ t, exec (.adopt tag m.imgHash) s = .next t ∧ t.pending = s.pending ∧ ended t ∧ t.part.mb.st = 3#4)
    ∧ (runs → m.parked = true → (∀ q c, (p.seq q).wait ≠ .stepmark c) → ∃ t, exec (.unpark tag v) s = .next t ∧ t.pending = s.pending ∧ ended t ∧ t.part.glob.step = v)
    ∧ (∀ opc, idle → mbKnown opc = false → ∃ t, exec (.mailboxUnknownCommand opc tag) s = .next t ∧ t.pending = s.pending ∧ t.part.mb.rspStatus = 1
        ∧ t.part.mb.rspTag = tag ∧ t.part.mb.rspDone = true)
    ∧ (∀ r, m.run = some r → r.tag = tag → r.load = none → m.toSwitch = [] → (∀ k ∈ m.restarting, k.2.2 = false) → ∃ t, exec .mailboxCommandEnd s = .next t ∧ t.pending = s.pending
        ∧ t.part.mb.rspStatus = r.status ∧ t.part.mb.rspTag = tag ∧ t.part.mb.rspDone = true ∧ t.part.mb.run = none)
    ∧ (m.hbArmed = true → m.hbLast + 200000000 ≤ p.now → m.st = 3#4 → m.parked = false → m.keeperUp = 0xF → m.halted = 0 →
        ∃ t, exec .heartbeatExpiry s = .next t ∧ t.pending = s.pending ∧ t.part.mb.st = 4#4)
    ∧ (m.st = 4#4 → m.drainAt + 1000000000 ≤ p.now → m.harbourLate = none → m.keeperUp = 0xF → m.halted = 0 → m.emerg = false → p.groups = [] → p.ctxs = [] → noteOk →
        ∃ t, exec .drainTimeout s = .next t ∧ t.pending = s.pending ∧ t.part.mb.st = 5#4 ∧ t.part.mb.parked = true)
    ∧ (bitOf m.keeperUp k.val = true → m.krst.length = 4 → m.emerg = false → tabFind m.rstWin k.val = none →
        (∃ t, exec (.keeperWatchdog k) s = .next t ∧ t.pending = s.pending ∧ bitOf t.part.mb.keeperUp k.val = false ∧ tabFind t.part.mb.restarting k.val = some (1, false))
        ∧ ∀ a pc, ∃ t, exec (.protectionFault k a pc) s = .next t ∧ t.pending = s.pending ∧ bitOf t.part.mb.keeperUp k.val = false
            ∧ tabFind t.part.mb.restarting k.val = some (2, false))
    ∧ (∀ c a, tabFind m.restarting k.val = some (c, a) → c ≠ 3 → m.isDeferred k.val = false → m.harbourq = [] → m.halted = 0 → m.krst.length = 4 → up →
        ∃ t, exec (.keeperRestartDone k true) s = .next t ∧ t.pending = s.pending ∧ bitOf t.part.mb.keeperUp k.val = true)
    ∧ (∀ d, m.deferred = [d] → d.since + 30000000000 ≤ p.now →
        ∃ t, exec .activationCancel s = .next t ∧ t.pending = s.pending ∧ t.part.mb.deferred = [] ∧ t.part.mb.actPending = false)
    ∧ (∀ i : PwrIn, p.pwr.inputs.changes i = [i] → p.pwr.release = none → m.restarting = [] → m.toSwitch = [] → m.deferred = [] → p.pwr.inputs.step < i.step →
        ∃ t, exec (.powerLineChange i) s = .next t ∧ t.pending = s.pending ∧ t.part.pwr.inputs = i ∧ t.part.pwr.stepEff = i.step)
    ∧ (∀ t0, p.pwr.release = some t0 → t0 + p.pwr.releaseTmo.toNat ≤ p.now → ∃ t, exec .powerReleaseExpiry s = .next t ∧ t.pending = s.pending
        ∧ t.part.pwr.stepEff = p.pwr.inputs.step ∧ t.part.pwr.release = none)
    ∧ (p.pwr.bootStep = 9 → m.runs 0 = true → p.pwr.laneAt + p.pwr.laneTmo.toNat ≤ p.now → p.pwr.joins = [] → p.groups = [] → ∃ t, exec .laneBringupTimeout s = .next t ∧ t.pending = s.pending
        ∧ t.part.pwr.bootStep = 11 ∧ t.part.glob.ready = true)
    ∧ (∀ j, p.pwr.bootStep = 10 → p.pwr.joins = [j] → j.2.2.2 + 100000000 ≤ p.now → ∃ t, exec (.joinTimeout j.1) s = .next t ∧ t.pending = s.pending
        ∧ t.part.pwr.joins = [] ∧ t.part.pwr.joinFail = true ∧ t.part.glob.ready = true)
    ∧ (∀ (i : W16) o, tabFind p.gh.outMsgs i.toNat = some o → o.buf = none → o.ftype ≠ .tether → ∃ t, exec (.lastFlitAccepted i) s = .next t ∧ t.pending = s.pending
        ∧ tabFind t.part.gh.outMsgs i.toNat = some { o with acceptedAt := some p.now })
    ∧ (p.twin.st = 5#3 → ∃ t, exec .resyncDone s = .next t ∧ t.pending = s.pending ∧ t.part.twin.st = 0#3)
    ∧ (∀ (q : Fin 9) w e, p.Issues q.val w → e.isUe = true ∨ IW.opc w ∉ opcodes → ∃ t, exec (.illegalOpcode q e) s = .next t ∧ t.pending = s.pending
        ∧ (t.part.seq q.val).st = 4#3 ∧ (t.part.seq q.val).fcode = 1#8))
  ∧ (∀ (n : Fin 64) (d : BitVec 128) (g : Fin 8) (up : BitVec 4) (rq co : Fin 74) (k : Nat) (s : State), s.part.Calm → s.part.glob.fencedSelf = false →
    let p := s.part
    let x := p.dp n.val
    let done (c : Instr) (P : Part → Prop) : Prop := ∃ t, exec c s = .next t ∧ t.pending = s.pending ∧ P t.part
    (x.fenced = false → x.exec = none → Desc.chain d = 0 → Desc.pair d = false →
        descCheck d (p.stream (Desc.stream d)) (x.ctx (Desc.ctx d)) (p.env (Desc.stream d)).wide false ((p.lodge (Desc.lodge d)).joinOk d) false (p.tagOk d) = 0 →
        done (.drainDescriptorIssue n d none) fun t => ∃ a, (t.dp n.val).exec = some a ∧ a.desc = d)
    ∧ (∀ j, x.exec = some j → j.started = false → j.lodgeWait = false → j.pair = .single → x.fenced = false →
        done (.drainStart n) fun t => ∃ a, (t.dp n.val).exec = some a ∧ a.started = true ∧ a.desc = j.desc)
    ∧ (∀ j row, x.exec = some j → p.rowReady n.val j = true → j.mode = .plain → j.pair = .single → j.lodge = none → j.row + 1 < Desc.rows j.desc →
        done (.accRowArrive n row false) fun t => ∃ a, (t.dp n.val).exec = some a ∧ a.row = j.row + 1)
    ∧ (∀ o rest, x.ops = o :: rest → quadOf n.val ∈ p.pwr.awake →
        done (.opsRowTransfer n .clean) fun t => Emit.opsRow n.val o.tag o.tidx o.next (o.rows.getD o.next []) ∈ t.out)
    ∧ (x.fenced = true → x.coreFault = false → p.shut = false → done (.unfence n) fun t => (t.dp n.val).fenced = false)
    ∧ (1 ≤ k → k ≤ 4096 → done (.larderRequest rq co k) fun t => t.larder.queue.length = p.larder.queue.length + 1)
    ∧ done (.pcsActiveRise g) (fun t => (t.lg g.val).active = true)
    ∧ (p.twin.st ≠ 2#3 → done (.pcsActiveFall g) fun t => (t.lg g.val).active = false)
    ∧ done (.pcsLaneChange g up) (fun t => (t.lg g.val).lanes = up)
    ∧ ((p.lg g.val).lpReq = true → done (.pcsLpAck g) fun t => (t.lg g.val).lowPower = true))

/-! ## The whole machine -/

/-- A step carries out the command at the front of the queue, the rest waiting; with an empty queue the block idles (log entry 2). -/
def Obligations.StepTakesFront : Prop :=
  (∀ (c : Instr) (rest : List Instr) (s : State), s.pending = c :: rest → step s = exec c { s with pending := rest })
  ∧ ∀ s : State, s.pending = [] → step s = .next s

/-- What reset leaves (R8, R128, R203, R231, R287, R289, R292, R310, R319, R320, R335, R340): the values the spec gives. -/
def Obligations.ResetState : Prop :=
  let s := State.reset
  let x := s.part
  s.pending = [] ∧ RamInv s ∧ x.pwr.bootStep = 1 ∧ x.pwr.cause = 1 ∧ x.mb.st = 0 ∧ x.mb.keeperUp = 0 ∧ x.glob.step = 0 ∧ x.glob.ready = false ∧ x.glob.accessErr = false
    ∧ x.regRead 0xD208 = some 0x00000FA0 ∧ x.regRead 0xD20C = some 0x00000FA0 ∧ x.regRead 0xD200 = some 3 ∧ x.regRead 0x8040 = some 0x00989680
    ∧ x.regRead 0xD308 = some 0x000003E8 ∧ x.regRead 0xD318 = some 0x000F4240 ∧ x.regRead 0xD330 = some 0x00989680
    ∧ (∀ q, q < 9 → (x.seq q).st = 0 ∧ (x.seq q).pc = 0 ∧ (x.seq q).loaded = false) ∧ (∀ d, d < 64 → (x.dp d).fenced = false ∧ (x.dp d).exec = none)
    ∧ x.ctxs = [] ∧ x.groups = [] ∧ x.larder.queue = [] ∧ x.larder.bufs = []

/-- Log entry 3: the Larder's RAM keeps its one canonical form in every step, from every state that has it. -/
def Obligations.LarderKeepsForm : Prop :=
  ∀ (s t : State), RamInv s → step s = .next t → RamInv t

/-- R328: a fuse once blown stays blown in every step, and FUSE_PROG alone blows one: its own, with the supply on. -/
def Obligations.FusesStayBlown : Prop :=
  ∀ (s t : State), step s = .next t → FusesKept s t
    ∧ ∀ i, bitOf s.fuses i = false → bitOf t.fuses i = true → ∃ bit : BitVec 12, bit.toNat = i ∧ s.pending.head? = some (.fuseProg bit true)

/-- R27, R319, R321, R327, R340: no command stops or refuses; every command leaves the queue behind it alone; and the Larder's RAM changes by LARDER_ACCESS
with WR, a self-test and a reset alone, a reset through the register window, or by a configuration block in a cycle of start-up, being one that leaves
STEP at 1. What the test port does beyond the
Larder's and the fuses' ends is log entry 4's, what a reset keeps log entry 36's. -/
def Obligations.EveryCommandRuns : Prop :=
  ∀ (c : Instr) (s : State),
    ∃ t, exec c s = .next t ∧ t.pending = s.pending
      ∧ (t.larderRam = s.larderRam ∨ (∃ l d, c = .larderAccess true l d)
          ∨ t.larderRam = [] ∧ ((∃ ok, c = .bistRun true ok) ∨ (∃ ok, c = .larderBistDone ok) ∨ c = .powerOnReset ∨ c = .packageReset ∨ (∃ w, c = .testReset w)
            ∨ t.part.pwr.bootStep = 1 ∧ ((∃ v, c = .softwareWarmReset v) ∨ (∃ o v, c = .registerWrite o v) ∨ (∃ w o v, c = .regAccess w o v)
                ∨ (∃ b, c = .timeBaseSample b) ∨ c = .tbValidLoss)))
end

