-- ==== Sys2Proof/Laws/Memory.lean ====
section
/-! SUPPORT. The Larder's RAM: every write keeps the canonical form, and what a read gives after a write. -/

namespace Sys2Proof.Machine

open Sys2Proof

/-- Every listed address is at least `a`. -/
def Memory.from' (a : Nat) : List Host.Cell → Prop
  | [] => True
  | c :: _ => a ≤ c.1

theorem Memory.wf_cons (c : Host.Cell) (m : List Host.Cell) :
    Memory.wf (c :: m) = true ↔ c.2 ≠ 0#8 ∧ Memory.from' (c.1 + 1) m ∧ Memory.wf m = true := by
  cases m with
  | nil => simp [Memory.wf, Memory.from']
  | cons d t =>
    simp only [Memory.wf, Memory.from', Bool.and_eq_true, decide_eq_true_eq, and_assoc]
    exact ⟨fun h => ⟨h.1, h.2.1, h.2.2⟩, fun h => ⟨h.1, h.2.1, h.2.2⟩⟩

theorem Memory.from_weaken {a b : Nat} {m : List Host.Cell} (h : b ≤ a) (hm : Memory.from' a m) : Memory.from' b m := by
  cases m with
  | nil => trivial
  | cons c t => exact Nat.le_trans h hm

theorem Memory.from_write {a k : Nat} {m : List Host.Cell} (b : Byte) (hk : k ≤ a) (hm : Memory.from' k m) (hw : Memory.wf m = true) :
    Memory.from' k (Memory.write m a b) := by
  cases m with
  | nil => unfold Memory.write; split <;> simp [Memory.from', hk]
  | cons c t =>
    have h := (Memory.wf_cons c t).1 hw
    have hc : k ≤ c.1 := hm
    unfold Memory.write
    split
    · split <;> simp [Memory.from', hk, hc]
    · split
      · split
        · exact Memory.from_weaken (by omega) h.2.1
        · simp [Memory.from', hk]
      · exact hc

/-- A write of one byte keeps the canonical form. -/
theorem Memory.wf_write (m : List Host.Cell) (a : Nat) (b : Byte) (h : Memory.wf m = true) : Memory.wf (Memory.write m a b) = true := by
  induction m with
  | nil => unfold Memory.write; split <;> simp_all [Memory.wf]
  | cons c t ih =>
    have hc := (Memory.wf_cons c t).1 h
    unfold Memory.write
    split
    · split
      · exact h
      · rename_i hlt hb
        exact (Memory.wf_cons _ _).2 ⟨hb, hlt, h⟩
    · split
      · split
        · exact hc.2.2
        · rename_i ha hb
          exact (Memory.wf_cons _ _).2 ⟨hb, by simpa [ha] using hc.2.1, hc.2.2⟩
      · exact (Memory.wf_cons _ _).2 ⟨hc.1, Memory.from_write b (by omega) hc.2.1 hc.2.2, ih hc.2.2⟩

/-- A write of consecutive bytes keeps the canonical form. -/
theorem Memory.wf_writeAll (bs : List Byte) (m : List Host.Cell) (a : Nat) (h : Memory.wf m = true) :
    Memory.wf (Memory.writeAll m a bs) = true := by
  induction bs generalizing m a with
  | nil => exact h
  | cons b t ih => exact ih _ _ (Memory.wf_write m a b h)

theorem Memory.read_below {m : List Host.Cell} {k a : Nat} (h : Memory.from' k m) (ha : a < k) : Memory.read m a = 0 := by
  cases m with
  | nil => rfl
  | cons c t => have : k ≤ c.1 := h; unfold Memory.read; split <;> (try split) <;> first | rfl | omega

/-- Reading after a write of one byte. -/
theorem Memory.read_write (m : List Host.Cell) (a i : Nat) (b : Byte) (h : Memory.wf m = true) :
    Memory.read (Memory.write m a b) i = if i = a then b else Memory.read m i := by
  induction m with
  | nil =>
    unfold Memory.write
    split
    · simp_all [Memory.read]
    · simp only [Memory.read]; split <;> simp_all
  | cons c t ih =>
    have hc := (Memory.wf_cons c t).1 h
    unfold Memory.write
    split
    · rename_i hlt
      have hno : Memory.read (c :: t) a = 0 := Memory.read_below (m := c :: t) (k := c.1) (Nat.le_refl _) hlt
      split
      · rename_i hb
        by_cases hi : i = a
        · subst hi; simp [hno, hb]
        · simp [hi]
      · by_cases hi : i = a
        · subst hi; simp [Memory.read]
        · simp only [Memory.read, hi, if_false]
          by_cases hia : i < a
          · have h1 : i ≠ c.1 := by omega
            have h2 : i < c.1 := by omega
            simp [hia, h1, h2]
          · simp [hia]
    · split
      · rename_i hnlt ha
        subst ha
        split
        · rename_i hb
          by_cases hi : i = c.1
          · subst hi; simp [hb, Memory.read_below hc.2.1 (Nat.lt_succ_self _)]
          · simp only [hi, if_false, Memory.read]
            by_cases hlt : i < c.1
            · simp [hlt, Memory.read_below hc.2.1 (show i < c.1 + 1 by omega)]
            · simp [hlt]
        · by_cases hi : i = c.1
          · subst hi; simp [Memory.read]
          · simp [Memory.read, hi]
      · rename_i hnlt hne
        simp only [Memory.read]
        by_cases hi : i = c.1
        · have : i ≠ a := by omega
          simp [hi]; intro hca; omega
        · simp only [hi, if_false]
          by_cases hlt : i < c.1
          · have : i ≠ a := by omega
            simp [hlt, this]
          · simp only [hlt, if_false]; exact ih hc.2.2

/-- Reading after a write of consecutive bytes: the byte written there, else as before. -/
theorem Memory.read_writeAll (bs : List Byte) (m : List Host.Cell) (a i : Nat) (h : Memory.wf m = true) :
    Memory.read (Memory.writeAll m a bs) i = if a ≤ i ∧ i < a + bs.length then bs.getD (i - a) 0 else Memory.read m i := by
  induction bs generalizing m a with
  | nil =>
    simp only [Memory.writeAll, List.length_nil, Nat.add_zero]
    rw [if_neg (fun h => by omega)]
  | cons b t ih =>
    simp only [Memory.writeAll]
    rw [ih _ _ (Memory.wf_write m a b h), Memory.read_write m a i b h]
    by_cases h1 : i = a
    · subst h1
      have h2 : ¬ (i + 1 ≤ i ∧ i < i + 1 + t.length) := by omega
      have h3 : i ≤ i ∧ i < i + (b :: t).length := by simp
      rw [if_neg h2, if_pos h3]; simp
    · by_cases h2 : a + 1 ≤ i ∧ i < a + 1 + t.length
      · have h3 : a ≤ i ∧ i < a + (b :: t).length := by simp; omega
        have h4 : i - a = (i - (a + 1)) + 1 := by omega
        rw [if_pos h2, if_pos h3, h4]; simp
      · have h3 : ¬ (a ≤ i ∧ i < a + (b :: t).length) := by simp only [List.length_cons]; omega
        rw [if_neg h2, if_neg h3, if_neg h1]

end Sys2Proof.Machine
end

