-- ==== Sys2Proof/Laws/State.lean ====
section
/-! SUPPORT. One lemma per field of the part and per changer: what it sets, and that every other field stands. -/

namespace Sys2Proof.Machine

@[simp] theorem Part.onGlob_glob (s : Part) (f : Glob → Glob) : (s.onGlob f).glob = f s.glob := rfl
@[simp] theorem Part.onGlob_irq (s : Part) (f : Glob → Glob) : (s.onGlob f).irq = s.irq := rfl
@[simp] theorem Part.onGlob_larder (s : Part) (f : Glob → Glob) : (s.onGlob f).larder = s.larder := rfl
@[simp] theorem Part.onGlob_dps (s : Part) (f : Glob → Glob) : (s.onGlob f).dps = s.dps := rfl
@[simp] theorem Part.onGlob_nocs (s : Part) (f : Glob → Glob) : (s.onGlob f).nocs = s.nocs := rfl
@[simp] theorem Part.onGlob_wss (s : Part) (f : Glob → Glob) : (s.onGlob f).wss = s.wss := rfl
@[simp] theorem Part.onGlob_seqs (s : Part) (f : Glob → Glob) : (s.onGlob f).seqs = s.seqs := rfl
@[simp] theorem Part.onGlob_ctxs (s : Part) (f : Glob → Glob) : (s.onGlob f).ctxs = s.ctxs := rfl
@[simp] theorem Part.onGlob_twinCtxs (s : Part) (f : Glob → Glob) : (s.onGlob f).twinCtxs = s.twinCtxs := rfl
@[simp] theorem Part.onGlob_tetherRegs (s : Part) (f : Glob → Glob) : (s.onGlob f).tetherRegs = s.tetherRegs := rfl
@[simp] theorem Part.onGlob_ssu (s : Part) (f : Glob → Glob) : (s.onGlob f).ssu = s.ssu := rfl
@[simp] theorem Part.onGlob_gh (s : Part) (f : Glob → Glob) : (s.onGlob f).gh = s.gh := rfl
@[simp] theorem Part.onGlob_courier (s : Part) (f : Glob → Glob) : (s.onGlob f).courier = s.courier := rfl
@[simp] theorem Part.onGlob_groups (s : Part) (f : Glob → Glob) : (s.onGlob f).groups = s.groups := rfl
@[simp] theorem Part.onGlob_twin (s : Part) (f : Glob → Glob) : (s.onGlob f).twin = s.twin := rfl
@[simp] theorem Part.onGlob_mb (s : Part) (f : Glob → Glob) : (s.onGlob f).mb = s.mb := rfl
@[simp] theorem Part.onGlob_gb (s : Part) (f : Glob → Glob) : (s.onGlob f).gb = s.gb := rfl
@[simp] theorem Part.onGlob_pwr (s : Part) (f : Glob → Glob) : (s.onGlob f).pwr = s.pwr := rfl
@[simp] theorem Part.onGlob_sensed (s : Part) (f : Glob → Glob) : (s.onGlob f).sensed = s.sensed := rfl
@[simp] theorem Part.onGlob_ctlOut (s : Part) (f : Glob → Glob) : (s.onGlob f).ctlOut = s.ctlOut := rfl
@[simp] theorem Part.onGlob_out (s : Part) (f : Glob → Glob) : (s.onGlob f).out = s.out := rfl
@[simp] theorem Part.onGlob_nextId (s : Part) (f : Glob → Glob) : (s.onGlob f).nextId = s.nextId := rfl
@[simp] theorem Part.onGlob_freeCtr (s : Part) (f : Glob → Glob) : (s.onGlob f).freeCtr = s.freeCtr := rfl
@[simp] theorem Part.onIrq_glob (s : Part) (f : Irq → Irq) : (s.onIrq f).glob = s.glob := rfl
@[simp] theorem Part.onIrq_irq (s : Part) (f : Irq → Irq) : (s.onIrq f).irq = f s.irq := rfl
@[simp] theorem Part.onIrq_larder (s : Part) (f : Irq → Irq) : (s.onIrq f).larder = s.larder := rfl
@[simp] theorem Part.onIrq_dps (s : Part) (f : Irq → Irq) : (s.onIrq f).dps = s.dps := rfl
@[simp] theorem Part.onIrq_nocs (s : Part) (f : Irq → Irq) : (s.onIrq f).nocs = s.nocs := rfl
@[simp] theorem Part.onIrq_wss (s : Part) (f : Irq → Irq) : (s.onIrq f).wss = s.wss := rfl
@[simp] theorem Part.onIrq_seqs (s : Part) (f : Irq → Irq) : (s.onIrq f).seqs = s.seqs := rfl
@[simp] theorem Part.onIrq_ctxs (s : Part) (f : Irq → Irq) : (s.onIrq f).ctxs = s.ctxs := rfl
@[simp] theorem Part.onIrq_twinCtxs (s : Part) (f : Irq → Irq) : (s.onIrq f).twinCtxs = s.twinCtxs := rfl
@[simp] theorem Part.onIrq_tetherRegs (s : Part) (f : Irq → Irq) : (s.onIrq f).tetherRegs = s.tetherRegs := rfl
@[simp] theorem Part.onIrq_ssu (s : Part) (f : Irq → Irq) : (s.onIrq f).ssu = s.ssu := rfl
@[simp] theorem Part.onIrq_gh (s : Part) (f : Irq → Irq) : (s.onIrq f).gh = s.gh := rfl
@[simp] theorem Part.onIrq_courier (s : Part) (f : Irq → Irq) : (s.onIrq f).courier = s.courier := rfl
@[simp] theorem Part.onIrq_groups (s : Part) (f : Irq → Irq) : (s.onIrq f).groups = s.groups := rfl
@[simp] theorem Part.onIrq_twin (s : Part) (f : Irq → Irq) : (s.onIrq f).twin = s.twin := rfl
@[simp] theorem Part.onIrq_mb (s : Part) (f : Irq → Irq) : (s.onIrq f).mb = s.mb := rfl
@[simp] theorem Part.onIrq_gb (s : Part) (f : Irq → Irq) : (s.onIrq f).gb = s.gb := rfl
@[simp] theorem Part.onIrq_pwr (s : Part) (f : Irq → Irq) : (s.onIrq f).pwr = s.pwr := rfl
@[simp] theorem Part.onIrq_sensed (s : Part) (f : Irq → Irq) : (s.onIrq f).sensed = s.sensed := rfl
@[simp] theorem Part.onIrq_ctlOut (s : Part) (f : Irq → Irq) : (s.onIrq f).ctlOut = s.ctlOut := rfl
@[simp] theorem Part.onIrq_out (s : Part) (f : Irq → Irq) : (s.onIrq f).out = s.out := rfl
@[simp] theorem Part.onIrq_nextId (s : Part) (f : Irq → Irq) : (s.onIrq f).nextId = s.nextId := rfl
@[simp] theorem Part.onIrq_freeCtr (s : Part) (f : Irq → Irq) : (s.onIrq f).freeCtr = s.freeCtr := rfl
@[simp] theorem Part.onLarder_glob (s : Part) (f : Larder → Larder) : (s.onLarder f).glob = s.glob := rfl
@[simp] theorem Part.onLarder_irq (s : Part) (f : Larder → Larder) : (s.onLarder f).irq = s.irq := rfl
@[simp] theorem Part.onLarder_larder (s : Part) (f : Larder → Larder) : (s.onLarder f).larder = f s.larder := rfl
@[simp] theorem Part.onLarder_dps (s : Part) (f : Larder → Larder) : (s.onLarder f).dps = s.dps := rfl
@[simp] theorem Part.onLarder_nocs (s : Part) (f : Larder → Larder) : (s.onLarder f).nocs = s.nocs := rfl
@[simp] theorem Part.onLarder_wss (s : Part) (f : Larder → Larder) : (s.onLarder f).wss = s.wss := rfl
@[simp] theorem Part.onLarder_seqs (s : Part) (f : Larder → Larder) : (s.onLarder f).seqs = s.seqs := rfl
@[simp] theorem Part.onLarder_ctxs (s : Part) (f : Larder → Larder) : (s.onLarder f).ctxs = s.ctxs := rfl
@[simp] theorem Part.onLarder_twinCtxs (s : Part) (f : Larder → Larder) : (s.onLarder f).twinCtxs = s.twinCtxs := rfl
@[simp] theorem Part.onLarder_tetherRegs (s : Part) (f : Larder → Larder) : (s.onLarder f).tetherRegs = s.tetherRegs := rfl
@[simp] theorem Part.onLarder_ssu (s : Part) (f : Larder → Larder) : (s.onLarder f).ssu = s.ssu := rfl
@[simp] theorem Part.onLarder_gh (s : Part) (f : Larder → Larder) : (s.onLarder f).gh = s.gh := rfl
@[simp] theorem Part.onLarder_courier (s : Part) (f : Larder → Larder) : (s.onLarder f).courier = s.courier := rfl
@[simp] theorem Part.onLarder_groups (s : Part) (f : Larder → Larder) : (s.onLarder f).groups = s.groups := rfl
@[simp] theorem Part.onLarder_twin (s : Part) (f : Larder → Larder) : (s.onLarder f).twin = s.twin := rfl
@[simp] theorem Part.onLarder_mb (s : Part) (f : Larder → Larder) : (s.onLarder f).mb = s.mb := rfl
@[simp] theorem Part.onLarder_gb (s : Part) (f : Larder → Larder) : (s.onLarder f).gb = s.gb := rfl
@[simp] theorem Part.onLarder_pwr (s : Part) (f : Larder → Larder) : (s.onLarder f).pwr = s.pwr := rfl
@[simp] theorem Part.onLarder_sensed (s : Part) (f : Larder → Larder) : (s.onLarder f).sensed = s.sensed := rfl
@[simp] theorem Part.onLarder_ctlOut (s : Part) (f : Larder → Larder) : (s.onLarder f).ctlOut = s.ctlOut := rfl
@[simp] theorem Part.onLarder_out (s : Part) (f : Larder → Larder) : (s.onLarder f).out = s.out := rfl
@[simp] theorem Part.onLarder_nextId (s : Part) (f : Larder → Larder) : (s.onLarder f).nextId = s.nextId := rfl
@[simp] theorem Part.onLarder_freeCtr (s : Part) (f : Larder → Larder) : (s.onLarder f).freeCtr = s.freeCtr := rfl
@[simp] theorem Part.onSsu_glob (s : Part) (f : Ssu → Ssu) : (s.onSsu f).glob = s.glob := rfl
@[simp] theorem Part.onSsu_irq (s : Part) (f : Ssu → Ssu) : (s.onSsu f).irq = s.irq := rfl
@[simp] theorem Part.onSsu_larder (s : Part) (f : Ssu → Ssu) : (s.onSsu f).larder = s.larder := rfl
@[simp] theorem Part.onSsu_dps (s : Part) (f : Ssu → Ssu) : (s.onSsu f).dps = s.dps := rfl
@[simp] theorem Part.onSsu_nocs (s : Part) (f : Ssu → Ssu) : (s.onSsu f).nocs = s.nocs := rfl
@[simp] theorem Part.onSsu_wss (s : Part) (f : Ssu → Ssu) : (s.onSsu f).wss = s.wss := rfl
@[simp] theorem Part.onSsu_seqs (s : Part) (f : Ssu → Ssu) : (s.onSsu f).seqs = s.seqs := rfl
@[simp] theorem Part.onSsu_ctxs (s : Part) (f : Ssu → Ssu) : (s.onSsu f).ctxs = s.ctxs := rfl
@[simp] theorem Part.onSsu_twinCtxs (s : Part) (f : Ssu → Ssu) : (s.onSsu f).twinCtxs = s.twinCtxs := rfl
@[simp] theorem Part.onSsu_tetherRegs (s : Part) (f : Ssu → Ssu) : (s.onSsu f).tetherRegs = s.tetherRegs := rfl
@[simp] theorem Part.onSsu_ssu (s : Part) (f : Ssu → Ssu) : (s.onSsu f).ssu = f s.ssu := rfl
@[simp] theorem Part.onSsu_gh (s : Part) (f : Ssu → Ssu) : (s.onSsu f).gh = s.gh := rfl
@[simp] theorem Part.onSsu_courier (s : Part) (f : Ssu → Ssu) : (s.onSsu f).courier = s.courier := rfl
@[simp] theorem Part.onSsu_groups (s : Part) (f : Ssu → Ssu) : (s.onSsu f).groups = s.groups := rfl
@[simp] theorem Part.onSsu_twin (s : Part) (f : Ssu → Ssu) : (s.onSsu f).twin = s.twin := rfl
@[simp] theorem Part.onSsu_mb (s : Part) (f : Ssu → Ssu) : (s.onSsu f).mb = s.mb := rfl
@[simp] theorem Part.onSsu_gb (s : Part) (f : Ssu → Ssu) : (s.onSsu f).gb = s.gb := rfl
@[simp] theorem Part.onSsu_pwr (s : Part) (f : Ssu → Ssu) : (s.onSsu f).pwr = s.pwr := rfl
@[simp] theorem Part.onSsu_sensed (s : Part) (f : Ssu → Ssu) : (s.onSsu f).sensed = s.sensed := rfl
@[simp] theorem Part.onSsu_ctlOut (s : Part) (f : Ssu → Ssu) : (s.onSsu f).ctlOut = s.ctlOut := rfl
@[simp] theorem Part.onSsu_out (s : Part) (f : Ssu → Ssu) : (s.onSsu f).out = s.out := rfl
@[simp] theorem Part.onSsu_nextId (s : Part) (f : Ssu → Ssu) : (s.onSsu f).nextId = s.nextId := rfl
@[simp] theorem Part.onSsu_freeCtr (s : Part) (f : Ssu → Ssu) : (s.onSsu f).freeCtr = s.freeCtr := rfl
@[simp] theorem Part.onGh_glob (s : Part) (f : Gh → Gh) : (s.onGh f).glob = s.glob := rfl
@[simp] theorem Part.onGh_irq (s : Part) (f : Gh → Gh) : (s.onGh f).irq = s.irq := rfl
@[simp] theorem Part.onGh_larder (s : Part) (f : Gh → Gh) : (s.onGh f).larder = s.larder := rfl
@[simp] theorem Part.onGh_dps (s : Part) (f : Gh → Gh) : (s.onGh f).dps = s.dps := rfl
@[simp] theorem Part.onGh_nocs (s : Part) (f : Gh → Gh) : (s.onGh f).nocs = s.nocs := rfl
@[simp] theorem Part.onGh_wss (s : Part) (f : Gh → Gh) : (s.onGh f).wss = s.wss := rfl
@[simp] theorem Part.onGh_seqs (s : Part) (f : Gh → Gh) : (s.onGh f).seqs = s.seqs := rfl
@[simp] theorem Part.onGh_ctxs (s : Part) (f : Gh → Gh) : (s.onGh f).ctxs = s.ctxs := rfl
@[simp] theorem Part.onGh_twinCtxs (s : Part) (f : Gh → Gh) : (s.onGh f).twinCtxs = s.twinCtxs := rfl
@[simp] theorem Part.onGh_tetherRegs (s : Part) (f : Gh → Gh) : (s.onGh f).tetherRegs = s.tetherRegs := rfl
@[simp] theorem Part.onGh_ssu (s : Part) (f : Gh → Gh) : (s.onGh f).ssu = s.ssu := rfl
@[simp] theorem Part.onGh_gh (s : Part) (f : Gh → Gh) : (s.onGh f).gh = f s.gh := rfl
@[simp] theorem Part.onGh_courier (s : Part) (f : Gh → Gh) : (s.onGh f).courier = s.courier := rfl
@[simp] theorem Part.onGh_groups (s : Part) (f : Gh → Gh) : (s.onGh f).groups = s.groups := rfl
@[simp] theorem Part.onGh_twin (s : Part) (f : Gh → Gh) : (s.onGh f).twin = s.twin := rfl
@[simp] theorem Part.onGh_mb (s : Part) (f : Gh → Gh) : (s.onGh f).mb = s.mb := rfl
@[simp] theorem Part.onGh_gb (s : Part) (f : Gh → Gh) : (s.onGh f).gb = s.gb := rfl
@[simp] theorem Part.onGh_pwr (s : Part) (f : Gh → Gh) : (s.onGh f).pwr = s.pwr := rfl
@[simp] theorem Part.onGh_sensed (s : Part) (f : Gh → Gh) : (s.onGh f).sensed = s.sensed := rfl
@[simp] theorem Part.onGh_ctlOut (s : Part) (f : Gh → Gh) : (s.onGh f).ctlOut = s.ctlOut := rfl
@[simp] theorem Part.onGh_out (s : Part) (f : Gh → Gh) : (s.onGh f).out = s.out := rfl
@[simp] theorem Part.onGh_nextId (s : Part) (f : Gh → Gh) : (s.onGh f).nextId = s.nextId := rfl
@[simp] theorem Part.onGh_freeCtr (s : Part) (f : Gh → Gh) : (s.onGh f).freeCtr = s.freeCtr := rfl
@[simp] theorem Part.onCr_glob (s : Part) (f : Courier → Courier) : (s.onCr f).glob = s.glob := rfl
@[simp] theorem Part.onCr_irq (s : Part) (f : Courier → Courier) : (s.onCr f).irq = s.irq := rfl
@[simp] theorem Part.onCr_larder (s : Part) (f : Courier → Courier) : (s.onCr f).larder = s.larder := rfl
@[simp] theorem Part.onCr_dps (s : Part) (f : Courier → Courier) : (s.onCr f).dps = s.dps := rfl
@[simp] theorem Part.onCr_nocs (s : Part) (f : Courier → Courier) : (s.onCr f).nocs = s.nocs := rfl
@[simp] theorem Part.onCr_wss (s : Part) (f : Courier → Courier) : (s.onCr f).wss = s.wss := rfl
@[simp] theorem Part.onCr_seqs (s : Part) (f : Courier → Courier) : (s.onCr f).seqs = s.seqs := rfl
@[simp] theorem Part.onCr_ctxs (s : Part) (f : Courier → Courier) : (s.onCr f).ctxs = s.ctxs := rfl
@[simp] theorem Part.onCr_twinCtxs (s : Part) (f : Courier → Courier) : (s.onCr f).twinCtxs = s.twinCtxs := rfl
@[simp] theorem Part.onCr_tetherRegs (s : Part) (f : Courier → Courier) : (s.onCr f).tetherRegs = s.tetherRegs := rfl
@[simp] theorem Part.onCr_ssu (s : Part) (f : Courier → Courier) : (s.onCr f).ssu = s.ssu := rfl
@[simp] theorem Part.onCr_gh (s : Part) (f : Courier → Courier) : (s.onCr f).gh = s.gh := rfl
@[simp] theorem Part.onCr_courier (s : Part) (f : Courier → Courier) : (s.onCr f).courier = f s.courier := rfl
@[simp] theorem Part.onCr_groups (s : Part) (f : Courier → Courier) : (s.onCr f).groups = s.groups := rfl
@[simp] theorem Part.onCr_twin (s : Part) (f : Courier → Courier) : (s.onCr f).twin = s.twin := rfl
@[simp] theorem Part.onCr_mb (s : Part) (f : Courier → Courier) : (s.onCr f).mb = s.mb := rfl
@[simp] theorem Part.onCr_gb (s : Part) (f : Courier → Courier) : (s.onCr f).gb = s.gb := rfl
@[simp] theorem Part.onCr_pwr (s : Part) (f : Courier → Courier) : (s.onCr f).pwr = s.pwr := rfl
@[simp] theorem Part.onCr_sensed (s : Part) (f : Courier → Courier) : (s.onCr f).sensed = s.sensed := rfl
@[simp] theorem Part.onCr_ctlOut (s : Part) (f : Courier → Courier) : (s.onCr f).ctlOut = s.ctlOut := rfl
@[simp] theorem Part.onCr_out (s : Part) (f : Courier → Courier) : (s.onCr f).out = s.out := rfl
@[simp] theorem Part.onCr_nextId (s : Part) (f : Courier → Courier) : (s.onCr f).nextId = s.nextId := rfl
@[simp] theorem Part.onCr_freeCtr (s : Part) (f : Courier → Courier) : (s.onCr f).freeCtr = s.freeCtr := rfl
@[simp] theorem Part.onTwin_glob (s : Part) (f : Twin → Twin) : (s.onTwin f).glob = s.glob := rfl
@[simp] theorem Part.onTwin_irq (s : Part) (f : Twin → Twin) : (s.onTwin f).irq = s.irq := rfl
@[simp] theorem Part.onTwin_larder (s : Part) (f : Twin → Twin) : (s.onTwin f).larder = s.larder := rfl
@[simp] theorem Part.onTwin_dps (s : Part) (f : Twin → Twin) : (s.onTwin f).dps = s.dps := rfl
@[simp] theorem Part.onTwin_nocs (s : Part) (f : Twin → Twin) : (s.onTwin f).nocs = s.nocs := rfl
@[simp] theorem Part.onTwin_wss (s : Part) (f : Twin → Twin) : (s.onTwin f).wss = s.wss := rfl
@[simp] theorem Part.onTwin_seqs (s : Part) (f : Twin → Twin) : (s.onTwin f).seqs = s.seqs := rfl
@[simp] theorem Part.onTwin_ctxs (s : Part) (f : Twin → Twin) : (s.onTwin f).ctxs = s.ctxs := rfl
@[simp] theorem Part.onTwin_twinCtxs (s : Part) (f : Twin → Twin) : (s.onTwin f).twinCtxs = s.twinCtxs := rfl
@[simp] theorem Part.onTwin_tetherRegs (s : Part) (f : Twin → Twin) : (s.onTwin f).tetherRegs = s.tetherRegs := rfl
@[simp] theorem Part.onTwin_ssu (s : Part) (f : Twin → Twin) : (s.onTwin f).ssu = s.ssu := rfl
@[simp] theorem Part.onTwin_gh (s : Part) (f : Twin → Twin) : (s.onTwin f).gh = s.gh := rfl
@[simp] theorem Part.onTwin_courier (s : Part) (f : Twin → Twin) : (s.onTwin f).courier = s.courier := rfl
@[simp] theorem Part.onTwin_groups (s : Part) (f : Twin → Twin) : (s.onTwin f).groups = s.groups := rfl
@[simp] theorem Part.onTwin_twin (s : Part) (f : Twin → Twin) : (s.onTwin f).twin = f s.twin := rfl
@[simp] theorem Part.onTwin_mb (s : Part) (f : Twin → Twin) : (s.onTwin f).mb = s.mb := rfl
@[simp] theorem Part.onTwin_gb (s : Part) (f : Twin → Twin) : (s.onTwin f).gb = s.gb := rfl
@[simp] theorem Part.onTwin_pwr (s : Part) (f : Twin → Twin) : (s.onTwin f).pwr = s.pwr := rfl
@[simp] theorem Part.onTwin_sensed (s : Part) (f : Twin → Twin) : (s.onTwin f).sensed = s.sensed := rfl
@[simp] theorem Part.onTwin_ctlOut (s : Part) (f : Twin → Twin) : (s.onTwin f).ctlOut = s.ctlOut := rfl
@[simp] theorem Part.onTwin_out (s : Part) (f : Twin → Twin) : (s.onTwin f).out = s.out := rfl
@[simp] theorem Part.onTwin_nextId (s : Part) (f : Twin → Twin) : (s.onTwin f).nextId = s.nextId := rfl
@[simp] theorem Part.onTwin_freeCtr (s : Part) (f : Twin → Twin) : (s.onTwin f).freeCtr = s.freeCtr := rfl
@[simp] theorem Part.onMb_glob (s : Part) (f : Mb → Mb) : (s.onMb f).glob = s.glob := rfl
@[simp] theorem Part.onMb_irq (s : Part) (f : Mb → Mb) : (s.onMb f).irq = s.irq := rfl
@[simp] theorem Part.onMb_larder (s : Part) (f : Mb → Mb) : (s.onMb f).larder = s.larder := rfl
@[simp] theorem Part.onMb_dps (s : Part) (f : Mb → Mb) : (s.onMb f).dps = s.dps := rfl
@[simp] theorem Part.onMb_nocs (s : Part) (f : Mb → Mb) : (s.onMb f).nocs = s.nocs := rfl
@[simp] theorem Part.onMb_wss (s : Part) (f : Mb → Mb) : (s.onMb f).wss = s.wss := rfl
@[simp] theorem Part.onMb_seqs (s : Part) (f : Mb → Mb) : (s.onMb f).seqs = s.seqs := rfl
@[simp] theorem Part.onMb_ctxs (s : Part) (f : Mb → Mb) : (s.onMb f).ctxs = s.ctxs := rfl
@[simp] theorem Part.onMb_twinCtxs (s : Part) (f : Mb → Mb) : (s.onMb f).twinCtxs = s.twinCtxs := rfl
@[simp] theorem Part.onMb_tetherRegs (s : Part) (f : Mb → Mb) : (s.onMb f).tetherRegs = s.tetherRegs := rfl
@[simp] theorem Part.onMb_ssu (s : Part) (f : Mb → Mb) : (s.onMb f).ssu = s.ssu := rfl
@[simp] theorem Part.onMb_gh (s : Part) (f : Mb → Mb) : (s.onMb f).gh = s.gh := rfl
@[simp] theorem Part.onMb_courier (s : Part) (f : Mb → Mb) : (s.onMb f).courier = s.courier := rfl
@[simp] theorem Part.onMb_groups (s : Part) (f : Mb → Mb) : (s.onMb f).groups = s.groups := rfl
@[simp] theorem Part.onMb_twin (s : Part) (f : Mb → Mb) : (s.onMb f).twin = s.twin := rfl
@[simp] theorem Part.onMb_mb (s : Part) (f : Mb → Mb) : (s.onMb f).mb = f s.mb := rfl
@[simp] theorem Part.onMb_gb (s : Part) (f : Mb → Mb) : (s.onMb f).gb = s.gb := rfl
@[simp] theorem Part.onMb_pwr (s : Part) (f : Mb → Mb) : (s.onMb f).pwr = s.pwr := rfl
@[simp] theorem Part.onMb_sensed (s : Part) (f : Mb → Mb) : (s.onMb f).sensed = s.sensed := rfl
@[simp] theorem Part.onMb_ctlOut (s : Part) (f : Mb → Mb) : (s.onMb f).ctlOut = s.ctlOut := rfl
@[simp] theorem Part.onMb_out (s : Part) (f : Mb → Mb) : (s.onMb f).out = s.out := rfl
@[simp] theorem Part.onMb_nextId (s : Part) (f : Mb → Mb) : (s.onMb f).nextId = s.nextId := rfl
@[simp] theorem Part.onMb_freeCtr (s : Part) (f : Mb → Mb) : (s.onMb f).freeCtr = s.freeCtr := rfl
@[simp] theorem Part.onGb_glob (s : Part) (f : Gb → Gb) : (s.onGb f).glob = s.glob := rfl
@[simp] theorem Part.onGb_irq (s : Part) (f : Gb → Gb) : (s.onGb f).irq = s.irq := rfl
@[simp] theorem Part.onGb_larder (s : Part) (f : Gb → Gb) : (s.onGb f).larder = s.larder := rfl
@[simp] theorem Part.onGb_dps (s : Part) (f : Gb → Gb) : (s.onGb f).dps = s.dps := rfl
@[simp] theorem Part.onGb_nocs (s : Part) (f : Gb → Gb) : (s.onGb f).nocs = s.nocs := rfl
@[simp] theorem Part.onGb_wss (s : Part) (f : Gb → Gb) : (s.onGb f).wss = s.wss := rfl
@[simp] theorem Part.onGb_seqs (s : Part) (f : Gb → Gb) : (s.onGb f).seqs = s.seqs := rfl
@[simp] theorem Part.onGb_ctxs (s : Part) (f : Gb → Gb) : (s.onGb f).ctxs = s.ctxs := rfl
@[simp] theorem Part.onGb_twinCtxs (s : Part) (f : Gb → Gb) : (s.onGb f).twinCtxs = s.twinCtxs := rfl
@[simp] theorem Part.onGb_tetherRegs (s : Part) (f : Gb → Gb) : (s.onGb f).tetherRegs = s.tetherRegs := rfl
@[simp] theorem Part.onGb_ssu (s : Part) (f : Gb → Gb) : (s.onGb f).ssu = s.ssu := rfl
@[simp] theorem Part.onGb_gh (s : Part) (f : Gb → Gb) : (s.onGb f).gh = s.gh := rfl
@[simp] theorem Part.onGb_courier (s : Part) (f : Gb → Gb) : (s.onGb f).courier = s.courier := rfl
@[simp] theorem Part.onGb_groups (s : Part) (f : Gb → Gb) : (s.onGb f).groups = s.groups := rfl
@[simp] theorem Part.onGb_twin (s : Part) (f : Gb → Gb) : (s.onGb f).twin = s.twin := rfl
@[simp] theorem Part.onGb_mb (s : Part) (f : Gb → Gb) : (s.onGb f).mb = s.mb := rfl
@[simp] theorem Part.onGb_gb (s : Part) (f : Gb → Gb) : (s.onGb f).gb = f s.gb := rfl
@[simp] theorem Part.onGb_pwr (s : Part) (f : Gb → Gb) : (s.onGb f).pwr = s.pwr := rfl
@[simp] theorem Part.onGb_sensed (s : Part) (f : Gb → Gb) : (s.onGb f).sensed = s.sensed := rfl
@[simp] theorem Part.onGb_ctlOut (s : Part) (f : Gb → Gb) : (s.onGb f).ctlOut = s.ctlOut := rfl
@[simp] theorem Part.onGb_out (s : Part) (f : Gb → Gb) : (s.onGb f).out = s.out := rfl
@[simp] theorem Part.onGb_nextId (s : Part) (f : Gb → Gb) : (s.onGb f).nextId = s.nextId := rfl
@[simp] theorem Part.onGb_freeCtr (s : Part) (f : Gb → Gb) : (s.onGb f).freeCtr = s.freeCtr := rfl
@[simp] theorem Part.onPwr_glob (s : Part) (f : Pwr → Pwr) : (s.onPwr f).glob = s.glob := rfl
@[simp] theorem Part.onPwr_irq (s : Part) (f : Pwr → Pwr) : (s.onPwr f).irq = s.irq := rfl
@[simp] theorem Part.onPwr_larder (s : Part) (f : Pwr → Pwr) : (s.onPwr f).larder = s.larder := rfl
@[simp] theorem Part.onPwr_dps (s : Part) (f : Pwr → Pwr) : (s.onPwr f).dps = s.dps := rfl
@[simp] theorem Part.onPwr_nocs (s : Part) (f : Pwr → Pwr) : (s.onPwr f).nocs = s.nocs := rfl
@[simp] theorem Part.onPwr_wss (s : Part) (f : Pwr → Pwr) : (s.onPwr f).wss = s.wss := rfl
@[simp] theorem Part.onPwr_seqs (s : Part) (f : Pwr → Pwr) : (s.onPwr f).seqs = s.seqs := rfl
@[simp] theorem Part.onPwr_ctxs (s : Part) (f : Pwr → Pwr) : (s.onPwr f).ctxs = s.ctxs := rfl
@[simp] theorem Part.onPwr_twinCtxs (s : Part) (f : Pwr → Pwr) : (s.onPwr f).twinCtxs = s.twinCtxs := rfl
@[simp] theorem Part.onPwr_tetherRegs (s : Part) (f : Pwr → Pwr) : (s.onPwr f).tetherRegs = s.tetherRegs := rfl
@[simp] theorem Part.onPwr_ssu (s : Part) (f : Pwr → Pwr) : (s.onPwr f).ssu = s.ssu := rfl
@[simp] theorem Part.onPwr_gh (s : Part) (f : Pwr → Pwr) : (s.onPwr f).gh = s.gh := rfl
@[simp] theorem Part.onPwr_courier (s : Part) (f : Pwr → Pwr) : (s.onPwr f).courier = s.courier := rfl
@[simp] theorem Part.onPwr_groups (s : Part) (f : Pwr → Pwr) : (s.onPwr f).groups = s.groups := rfl
@[simp] theorem Part.onPwr_twin (s : Part) (f : Pwr → Pwr) : (s.onPwr f).twin = s.twin := rfl
@[simp] theorem Part.onPwr_mb (s : Part) (f : Pwr → Pwr) : (s.onPwr f).mb = s.mb := rfl
@[simp] theorem Part.onPwr_gb (s : Part) (f : Pwr → Pwr) : (s.onPwr f).gb = s.gb := rfl
@[simp] theorem Part.onPwr_pwr (s : Part) (f : Pwr → Pwr) : (s.onPwr f).pwr = f s.pwr := rfl
@[simp] theorem Part.onPwr_sensed (s : Part) (f : Pwr → Pwr) : (s.onPwr f).sensed = s.sensed := rfl
@[simp] theorem Part.onPwr_ctlOut (s : Part) (f : Pwr → Pwr) : (s.onPwr f).ctlOut = s.ctlOut := rfl
@[simp] theorem Part.onPwr_out (s : Part) (f : Pwr → Pwr) : (s.onPwr f).out = s.out := rfl
@[simp] theorem Part.onPwr_nextId (s : Part) (f : Pwr → Pwr) : (s.onPwr f).nextId = s.nextId := rfl
@[simp] theorem Part.onPwr_freeCtr (s : Part) (f : Pwr → Pwr) : (s.onPwr f).freeCtr = s.freeCtr := rfl
@[simp] theorem Part.onDp_glob (s : Part) (n : Nat) (f : Dp → Dp) : (s.onDp n f).glob = s.glob := rfl
@[simp] theorem Part.onDp_irq (s : Part) (n : Nat) (f : Dp → Dp) : (s.onDp n f).irq = s.irq := rfl
@[simp] theorem Part.onDp_larder (s : Part) (n : Nat) (f : Dp → Dp) : (s.onDp n f).larder = s.larder := rfl
@[simp] theorem Part.onDp_nocs (s : Part) (n : Nat) (f : Dp → Dp) : (s.onDp n f).nocs = s.nocs := rfl
@[simp] theorem Part.onDp_wss (s : Part) (n : Nat) (f : Dp → Dp) : (s.onDp n f).wss = s.wss := rfl
@[simp] theorem Part.onDp_seqs (s : Part) (n : Nat) (f : Dp → Dp) : (s.onDp n f).seqs = s.seqs := rfl
@[simp] theorem Part.onDp_ctxs (s : Part) (n : Nat) (f : Dp → Dp) : (s.onDp n f).ctxs = s.ctxs := rfl
@[simp] theorem Part.onDp_twinCtxs (s : Part) (n : Nat) (f : Dp → Dp) : (s.onDp n f).twinCtxs = s.twinCtxs := rfl
@[simp] theorem Part.onDp_tetherRegs (s : Part) (n : Nat) (f : Dp → Dp) : (s.onDp n f).tetherRegs = s.tetherRegs := rfl
@[simp] theorem Part.onDp_ssu (s : Part) (n : Nat) (f : Dp → Dp) : (s.onDp n f).ssu = s.ssu := rfl
@[simp] theorem Part.onDp_gh (s : Part) (n : Nat) (f : Dp → Dp) : (s.onDp n f).gh = s.gh := rfl
@[simp] theorem Part.onDp_courier (s : Part) (n : Nat) (f : Dp → Dp) : (s.onDp n f).courier = s.courier := rfl
@[simp] theorem Part.onDp_groups (s : Part) (n : Nat) (f : Dp → Dp) : (s.onDp n f).groups = s.groups := rfl
@[simp] theorem Part.onDp_twin (s : Part) (n : Nat) (f : Dp → Dp) : (s.onDp n f).twin = s.twin := rfl
@[simp] theorem Part.onDp_mb (s : Part) (n : Nat) (f : Dp → Dp) : (s.onDp n f).mb = s.mb := rfl
@[simp] theorem Part.onDp_gb (s : Part) (n : Nat) (f : Dp → Dp) : (s.onDp n f).gb = s.gb := rfl
@[simp] theorem Part.onDp_pwr (s : Part) (n : Nat) (f : Dp → Dp) : (s.onDp n f).pwr = s.pwr := rfl
@[simp] theorem Part.onDp_sensed (s : Part) (n : Nat) (f : Dp → Dp) : (s.onDp n f).sensed = s.sensed := rfl
@[simp] theorem Part.onDp_ctlOut (s : Part) (n : Nat) (f : Dp → Dp) : (s.onDp n f).ctlOut = s.ctlOut := rfl
@[simp] theorem Part.onDp_out (s : Part) (n : Nat) (f : Dp → Dp) : (s.onDp n f).out = s.out := rfl
@[simp] theorem Part.onDp_nextId (s : Part) (n : Nat) (f : Dp → Dp) : (s.onDp n f).nextId = s.nextId := rfl
@[simp] theorem Part.onDp_freeCtr (s : Part) (n : Nat) (f : Dp → Dp) : (s.onDp n f).freeCtr = s.freeCtr := rfl
@[simp] theorem Part.onNoc_glob (s : Part) (n : Nat) (f : NocPort → NocPort) : (s.onNoc n f).glob = s.glob := rfl
@[simp] theorem Part.onNoc_irq (s : Part) (n : Nat) (f : NocPort → NocPort) : (s.onNoc n f).irq = s.irq := rfl
@[simp] theorem Part.onNoc_larder (s : Part) (n : Nat) (f : NocPort → NocPort) : (s.onNoc n f).larder = s.larder := rfl
@[simp] theorem Part.onNoc_dps (s : Part) (n : Nat) (f : NocPort → NocPort) : (s.onNoc n f).dps = s.dps := rfl
@[simp] theorem Part.onNoc_wss (s : Part) (n : Nat) (f : NocPort → NocPort) : (s.onNoc n f).wss = s.wss := rfl
@[simp] theorem Part.onNoc_seqs (s : Part) (n : Nat) (f : NocPort → NocPort) : (s.onNoc n f).seqs = s.seqs := rfl
@[simp] theorem Part.onNoc_ctxs (s : Part) (n : Nat) (f : NocPort → NocPort) : (s.onNoc n f).ctxs = s.ctxs := rfl
@[simp] theorem Part.onNoc_twinCtxs (s : Part) (n : Nat) (f : NocPort → NocPort) : (s.onNoc n f).twinCtxs = s.twinCtxs := rfl
@[simp] theorem Part.onNoc_tetherRegs (s : Part) (n : Nat) (f : NocPort → NocPort) : (s.onNoc n f).tetherRegs = s.tetherRegs := rfl
@[simp] theorem Part.onNoc_ssu (s : Part) (n : Nat) (f : NocPort → NocPort) : (s.onNoc n f).ssu = s.ssu := rfl
@[simp] theorem Part.onNoc_gh (s : Part) (n : Nat) (f : NocPort → NocPort) : (s.onNoc n f).gh = s.gh := rfl
@[simp] theorem Part.onNoc_courier (s : Part) (n : Nat) (f : NocPort → NocPort) : (s.onNoc n f).courier = s.courier := rfl
@[simp] theorem Part.onNoc_groups (s : Part) (n : Nat) (f : NocPort → NocPort) : (s.onNoc n f).groups = s.groups := rfl
@[simp] theorem Part.onNoc_twin (s : Part) (n : Nat) (f : NocPort → NocPort) : (s.onNoc n f).twin = s.twin := rfl
@[simp] theorem Part.onNoc_mb (s : Part) (n : Nat) (f : NocPort → NocPort) : (s.onNoc n f).mb = s.mb := rfl
@[simp] theorem Part.onNoc_gb (s : Part) (n : Nat) (f : NocPort → NocPort) : (s.onNoc n f).gb = s.gb := rfl
@[simp] theorem Part.onNoc_pwr (s : Part) (n : Nat) (f : NocPort → NocPort) : (s.onNoc n f).pwr = s.pwr := rfl
@[simp] theorem Part.onNoc_sensed (s : Part) (n : Nat) (f : NocPort → NocPort) : (s.onNoc n f).sensed = s.sensed := rfl
@[simp] theorem Part.onNoc_ctlOut (s : Part) (n : Nat) (f : NocPort → NocPort) : (s.onNoc n f).ctlOut = s.ctlOut := rfl
@[simp] theorem Part.onNoc_out (s : Part) (n : Nat) (f : NocPort → NocPort) : (s.onNoc n f).out = s.out := rfl
@[simp] theorem Part.onNoc_nextId (s : Part) (n : Nat) (f : NocPort → NocPort) : (s.onNoc n f).nextId = s.nextId := rfl
@[simp] theorem Part.onNoc_freeCtr (s : Part) (n : Nat) (f : NocPort → NocPort) : (s.onNoc n f).freeCtr = s.freeCtr := rfl
@[simp] theorem Part.onWs_glob (s : Part) (n : Nat) (f : Ws → Ws) : (s.onWs n f).glob = s.glob := rfl
@[simp] theorem Part.onWs_irq (s : Part) (n : Nat) (f : Ws → Ws) : (s.onWs n f).irq = s.irq := rfl
@[simp] theorem Part.onWs_larder (s : Part) (n : Nat) (f : Ws → Ws) : (s.onWs n f).larder = s.larder := rfl
@[simp] theorem Part.onWs_dps (s : Part) (n : Nat) (f : Ws → Ws) : (s.onWs n f).dps = s.dps := rfl
@[simp] theorem Part.onWs_nocs (s : Part) (n : Nat) (f : Ws → Ws) : (s.onWs n f).nocs = s.nocs := rfl
@[simp] theorem Part.onWs_seqs (s : Part) (n : Nat) (f : Ws → Ws) : (s.onWs n f).seqs = s.seqs := rfl
@[simp] theorem Part.onWs_ctxs (s : Part) (n : Nat) (f : Ws → Ws) : (s.onWs n f).ctxs = s.ctxs := rfl
@[simp] theorem Part.onWs_twinCtxs (s : Part) (n : Nat) (f : Ws → Ws) : (s.onWs n f).twinCtxs = s.twinCtxs := rfl
@[simp] theorem Part.onWs_tetherRegs (s : Part) (n : Nat) (f : Ws → Ws) : (s.onWs n f).tetherRegs = s.tetherRegs := rfl
@[simp] theorem Part.onWs_ssu (s : Part) (n : Nat) (f : Ws → Ws) : (s.onWs n f).ssu = s.ssu := rfl
@[simp] theorem Part.onWs_gh (s : Part) (n : Nat) (f : Ws → Ws) : (s.onWs n f).gh = s.gh := rfl
@[simp] theorem Part.onWs_courier (s : Part) (n : Nat) (f : Ws → Ws) : (s.onWs n f).courier = s.courier := rfl
@[simp] theorem Part.onWs_groups (s : Part) (n : Nat) (f : Ws → Ws) : (s.onWs n f).groups = s.groups := rfl
@[simp] theorem Part.onWs_twin (s : Part) (n : Nat) (f : Ws → Ws) : (s.onWs n f).twin = s.twin := rfl
@[simp] theorem Part.onWs_mb (s : Part) (n : Nat) (f : Ws → Ws) : (s.onWs n f).mb = s.mb := rfl
@[simp] theorem Part.onWs_gb (s : Part) (n : Nat) (f : Ws → Ws) : (s.onWs n f).gb = s.gb := rfl
@[simp] theorem Part.onWs_pwr (s : Part) (n : Nat) (f : Ws → Ws) : (s.onWs n f).pwr = s.pwr := rfl
@[simp] theorem Part.onWs_sensed (s : Part) (n : Nat) (f : Ws → Ws) : (s.onWs n f).sensed = s.sensed := rfl
@[simp] theorem Part.onWs_ctlOut (s : Part) (n : Nat) (f : Ws → Ws) : (s.onWs n f).ctlOut = s.ctlOut := rfl
@[simp] theorem Part.onWs_out (s : Part) (n : Nat) (f : Ws → Ws) : (s.onWs n f).out = s.out := rfl
@[simp] theorem Part.onWs_nextId (s : Part) (n : Nat) (f : Ws → Ws) : (s.onWs n f).nextId = s.nextId := rfl
@[simp] theorem Part.onWs_freeCtr (s : Part) (n : Nat) (f : Ws → Ws) : (s.onWs n f).freeCtr = s.freeCtr := rfl
@[simp] theorem Part.onSeq_glob (s : Part) (n : Nat) (f : Seq → Seq) : (s.onSeq n f).glob = s.glob := rfl
@[simp] theorem Part.onSeq_irq (s : Part) (n : Nat) (f : Seq → Seq) : (s.onSeq n f).irq = s.irq := rfl
@[simp] theorem Part.onSeq_larder (s : Part) (n : Nat) (f : Seq → Seq) : (s.onSeq n f).larder = s.larder := rfl
@[simp] theorem Part.onSeq_dps (s : Part) (n : Nat) (f : Seq → Seq) : (s.onSeq n f).dps = s.dps := rfl
@[simp] theorem Part.onSeq_nocs (s : Part) (n : Nat) (f : Seq → Seq) : (s.onSeq n f).nocs = s.nocs := rfl
@[simp] theorem Part.onSeq_wss (s : Part) (n : Nat) (f : Seq → Seq) : (s.onSeq n f).wss = s.wss := rfl
@[simp] theorem Part.onSeq_ctxs (s : Part) (n : Nat) (f : Seq → Seq) : (s.onSeq n f).ctxs = s.ctxs := rfl
@[simp] theorem Part.onSeq_twinCtxs (s : Part) (n : Nat) (f : Seq → Seq) : (s.onSeq n f).twinCtxs = s.twinCtxs := rfl
@[simp] theorem Part.onSeq_tetherRegs (s : Part) (n : Nat) (f : Seq → Seq) : (s.onSeq n f).tetherRegs = s.tetherRegs := rfl
@[simp] theorem Part.onSeq_ssu (s : Part) (n : Nat) (f : Seq → Seq) : (s.onSeq n f).ssu = s.ssu := rfl
@[simp] theorem Part.onSeq_gh (s : Part) (n : Nat) (f : Seq → Seq) : (s.onSeq n f).gh = s.gh := rfl
@[simp] theorem Part.onSeq_courier (s : Part) (n : Nat) (f : Seq → Seq) : (s.onSeq n f).courier = s.courier := rfl
@[simp] theorem Part.onSeq_groups (s : Part) (n : Nat) (f : Seq → Seq) : (s.onSeq n f).groups = s.groups := rfl
@[simp] theorem Part.onSeq_twin (s : Part) (n : Nat) (f : Seq → Seq) : (s.onSeq n f).twin = s.twin := rfl
@[simp] theorem Part.onSeq_mb (s : Part) (n : Nat) (f : Seq → Seq) : (s.onSeq n f).mb = s.mb := rfl
@[simp] theorem Part.onSeq_gb (s : Part) (n : Nat) (f : Seq → Seq) : (s.onSeq n f).gb = s.gb := rfl
@[simp] theorem Part.onSeq_pwr (s : Part) (n : Nat) (f : Seq → Seq) : (s.onSeq n f).pwr = s.pwr := rfl
@[simp] theorem Part.onSeq_sensed (s : Part) (n : Nat) (f : Seq → Seq) : (s.onSeq n f).sensed = s.sensed := rfl
@[simp] theorem Part.onSeq_ctlOut (s : Part) (n : Nat) (f : Seq → Seq) : (s.onSeq n f).ctlOut = s.ctlOut := rfl
@[simp] theorem Part.onSeq_out (s : Part) (n : Nat) (f : Seq → Seq) : (s.onSeq n f).out = s.out := rfl
@[simp] theorem Part.onSeq_nextId (s : Part) (n : Nat) (f : Seq → Seq) : (s.onSeq n f).nextId = s.nextId := rfl
@[simp] theorem Part.onSeq_freeCtr (s : Part) (n : Nat) (f : Seq → Seq) : (s.onSeq n f).freeCtr = s.freeCtr := rfl
@[simp] theorem Part.emit_glob (s : Part) (e : Emit) : (s.emit e).glob = s.glob := rfl
@[simp] theorem Part.emit_irq (s : Part) (e : Emit) : (s.emit e).irq = s.irq := rfl
@[simp] theorem Part.emit_larder (s : Part) (e : Emit) : (s.emit e).larder = s.larder := rfl
@[simp] theorem Part.emit_dps (s : Part) (e : Emit) : (s.emit e).dps = s.dps := rfl
@[simp] theorem Part.emit_nocs (s : Part) (e : Emit) : (s.emit e).nocs = s.nocs := rfl
@[simp] theorem Part.emit_wss (s : Part) (e : Emit) : (s.emit e).wss = s.wss := rfl
@[simp] theorem Part.emit_seqs (s : Part) (e : Emit) : (s.emit e).seqs = s.seqs := rfl
@[simp] theorem Part.emit_ctxs (s : Part) (e : Emit) : (s.emit e).ctxs = s.ctxs := rfl
@[simp] theorem Part.emit_twinCtxs (s : Part) (e : Emit) : (s.emit e).twinCtxs = s.twinCtxs := rfl
@[simp] theorem Part.emit_tetherRegs (s : Part) (e : Emit) : (s.emit e).tetherRegs = s.tetherRegs := rfl
@[simp] theorem Part.emit_ssu (s : Part) (e : Emit) : (s.emit e).ssu = s.ssu := rfl
@[simp] theorem Part.emit_gh (s : Part) (e : Emit) : (s.emit e).gh = s.gh := rfl
@[simp] theorem Part.emit_courier (s : Part) (e : Emit) : (s.emit e).courier = s.courier := rfl
@[simp] theorem Part.emit_groups (s : Part) (e : Emit) : (s.emit e).groups = s.groups := rfl
@[simp] theorem Part.emit_twin (s : Part) (e : Emit) : (s.emit e).twin = s.twin := rfl
@[simp] theorem Part.emit_mb (s : Part) (e : Emit) : (s.emit e).mb = s.mb := rfl
@[simp] theorem Part.emit_gb (s : Part) (e : Emit) : (s.emit e).gb = s.gb := rfl
@[simp] theorem Part.emit_pwr (s : Part) (e : Emit) : (s.emit e).pwr = s.pwr := rfl
@[simp] theorem Part.emit_sensed (s : Part) (e : Emit) : (s.emit e).sensed = s.sensed := rfl
@[simp] theorem Part.emit_ctlOut (s : Part) (e : Emit) : (s.emit e).ctlOut = s.ctlOut := rfl
@[simp] theorem Part.emit_nextId (s : Part) (e : Emit) : (s.emit e).nextId = s.nextId := rfl
@[simp] theorem Part.emit_freeCtr (s : Part) (e : Emit) : (s.emit e).freeCtr = s.freeCtr := rfl
@[simp] theorem Part.emit_out (s : Part) (e : Emit) : (s.emit e).out = e :: s.out := rfl
@[simp] theorem Part.finish_irq (s : Part) : s.finish.irq = s.irq := rfl
@[simp] theorem Part.finish_larder (s : Part) : s.finish.larder = s.larder := rfl
@[simp] theorem Part.finish_dps (s : Part) : s.finish.dps = s.dps := rfl
@[simp] theorem Part.finish_nocs (s : Part) : s.finish.nocs = s.nocs := rfl
@[simp] theorem Part.finish_wss (s : Part) : s.finish.wss = s.wss := rfl
@[simp] theorem Part.finish_seqs (s : Part) : s.finish.seqs = s.seqs := rfl
@[simp] theorem Part.finish_ctxs (s : Part) : s.finish.ctxs = s.ctxs := rfl
@[simp] theorem Part.finish_twinCtxs (s : Part) : s.finish.twinCtxs = s.twinCtxs := rfl
@[simp] theorem Part.finish_tetherRegs (s : Part) : s.finish.tetherRegs = s.tetherRegs := rfl
@[simp] theorem Part.finish_ssu (s : Part) : s.finish.ssu = s.ssu := rfl
@[simp] theorem Part.finish_gh (s : Part) : s.finish.gh = s.gh := rfl
@[simp] theorem Part.finish_courier (s : Part) : s.finish.courier = s.courier := rfl
@[simp] theorem Part.finish_groups (s : Part) : s.finish.groups = s.groups := rfl
@[simp] theorem Part.finish_twin (s : Part) : s.finish.twin = s.twin := rfl
@[simp] theorem Part.finish_mb (s : Part) : s.finish.mb = s.mb := rfl
@[simp] theorem Part.finish_gb (s : Part) : s.finish.gb = s.gb := rfl
@[simp] theorem Part.finish_pwr (s : Part) : s.finish.pwr = s.pwr := rfl
@[simp] theorem Part.finish_sensed (s : Part) : s.finish.sensed = s.sensed := rfl
@[simp] theorem Part.finish_ctlOut (s : Part) : s.finish.ctlOut = s.ctlOut := rfl
@[simp] theorem Part.finish_out (s : Part) : s.finish.out = s.out := rfl
@[simp] theorem Part.finish_nextId (s : Part) : s.finish.nextId = s.nextId := rfl
@[simp] theorem Part.finish_freeCtr (s : Part) : s.finish.freeCtr = s.freeCtr := rfl
@[simp] theorem Part.finish_glob (s : Part) :
    s.finish.glob = { s.glob with acted := some s.now, evSeq := s.glob.evSeq + 1 } := rfl
@[simp] theorem Part.wake_glob (s : Part) (d : Dom) : (s.wake d).glob = s.glob := rfl
@[simp] theorem Part.wake_irq (s : Part) (d : Dom) : (s.wake d).irq = s.irq := rfl
@[simp] theorem Part.wake_larder (s : Part) (d : Dom) : (s.wake d).larder = s.larder := rfl
@[simp] theorem Part.wake_dps (s : Part) (d : Dom) : (s.wake d).dps = s.dps := rfl
@[simp] theorem Part.wake_nocs (s : Part) (d : Dom) : (s.wake d).nocs = s.nocs := rfl
@[simp] theorem Part.wake_wss (s : Part) (d : Dom) : (s.wake d).wss = s.wss := rfl
@[simp] theorem Part.wake_seqs (s : Part) (d : Dom) : (s.wake d).seqs = s.seqs := rfl
@[simp] theorem Part.wake_ctxs (s : Part) (d : Dom) : (s.wake d).ctxs = s.ctxs := rfl
@[simp] theorem Part.wake_twinCtxs (s : Part) (d : Dom) : (s.wake d).twinCtxs = s.twinCtxs := rfl
@[simp] theorem Part.wake_tetherRegs (s : Part) (d : Dom) : (s.wake d).tetherRegs = s.tetherRegs := rfl
@[simp] theorem Part.wake_ssu (s : Part) (d : Dom) : (s.wake d).ssu = s.ssu := rfl
@[simp] theorem Part.wake_gh (s : Part) (d : Dom) : (s.wake d).gh = s.gh := rfl
@[simp] theorem Part.wake_courier (s : Part) (d : Dom) : (s.wake d).courier = s.courier := rfl
@[simp] theorem Part.wake_groups (s : Part) (d : Dom) : (s.wake d).groups = s.groups := rfl
@[simp] theorem Part.wake_twin (s : Part) (d : Dom) : (s.wake d).twin = s.twin := rfl
@[simp] theorem Part.wake_mb (s : Part) (d : Dom) : (s.wake d).mb = s.mb := rfl
@[simp] theorem Part.wake_gb (s : Part) (d : Dom) : (s.wake d).gb = s.gb := rfl
@[simp] theorem Part.wake_sensed (s : Part) (d : Dom) : (s.wake d).sensed = s.sensed := rfl
@[simp] theorem Part.wake_ctlOut (s : Part) (d : Dom) : (s.wake d).ctlOut = s.ctlOut := rfl
@[simp] theorem Part.wake_out (s : Part) (d : Dom) : (s.wake d).out = s.out := rfl
@[simp] theorem Part.wake_nextId (s : Part) (d : Dom) : (s.wake d).nextId = s.nextId := rfl
@[simp] theorem Part.wake_freeCtr (s : Part) (d : Dom) : (s.wake d).freeCtr = s.freeCtr := rfl
@[simp] theorem Part.wake_pwr (s : Part) (d : Dom) : (s.wake d).pwr = s.pwr.wake s.now d := rfl

end Sys2Proof.Machine
end

