-- ==== Sys2Proof/Laws/Table.lean ====
section
/-! SUPPORT. Sparse tables: what a key reads as after each change. -/

namespace Sys2Proof.Machine

theorem tabFind_tabInsert {α : Type} (t : Tab α) (i j : Nat) (v : α) :
    tabFind (tabInsert t i v) j = if j = i then some v else tabFind t j := by
  induction t with
  | nil => simp [tabInsert, tabFind]
  | cons x t ih =>
    obtain ⟨k, w⟩ := x
    by_cases h1 : i < k
    · simp [tabInsert, h1, tabFind]
    · by_cases h2 : i = k
      · subst h2; by_cases h3 : j = i <;> simp [tabInsert, tabFind, h3]
      · simp only [tabInsert, h1, h2, if_false, tabFind, ih]
        by_cases h3 : j = k
        · subst h3; simp [Ne.symm h2]
        · simp [h3]

theorem tabFind_tabErase {α : Type} (t : Tab α) (i j : Nat) :
    tabFind (tabErase t i) j = if j = i then none else tabFind t j := by
  induction t with
  | nil => simp [tabErase, tabFind]
  | cons x t ih =>
    obtain ⟨k, w⟩ := x
    by_cases h2 : i = k
    · subst h2; simp only [tabErase, if_true, ih, tabFind]; by_cases h3 : j = i <;> simp [h3]
    · simp only [tabErase, h2, if_false, tabFind, ih]
      by_cases h3 : j = k
      · subst h3; simp [Ne.symm h2]
      · simp [h3]

@[simp] theorem tabGet_nil {α : Type} (i : Nat) (d : α) : tabGet ([] : Tab α) i d = d := rfl

theorem tabGet_tabSet {α : Type} [DecidableEq α] (t : Tab α) (i j : Nat) (v d : α) :
    tabGet (tabSet t i v d) j d = if j = i then v else tabGet t j d := by
  unfold tabSet tabGet
  by_cases h : v = d
  · simp only [h, if_true, tabFind_tabErase]; by_cases h2 : j = i <;> simp [h2]
  · simp only [h, if_false, tabFind_tabInsert]; by_cases h2 : j = i <;> simp [h2]

theorem tabGet_tabMod {α : Type} [DecidableEq α] (t : Tab α) (i j : Nat) (d : α) (f : α → α) :
    tabGet (tabMod t i d f) j d = if j = i then f (tabGet t i d) else tabGet t j d := tabGet_tabSet _ _ _ _ _

end Sys2Proof.Machine
end

