-- ==== Sys2Proof/Laws/Ops.lean ====
section
/-! SUPPORT. What the shared operations do: units after a change, the mirror, the end of a command, the refused access. -/

namespace Sys2Proof.Machine

open Sys2Proof

/-! ### Units of a table after a change -/

theorem Part.seq_onSeq (s : Part) (n m : Nat) (f : Seq → Seq) : (s.onSeq n f).seq m = if m = n then f (s.seq n) else s.seq m :=
  tabGet_tabMod _ _ _ _ _
theorem Part.dp_onDp (s : Part) (n m : Nat) (f : Dp → Dp) : (s.onDp n f).dp m = if m = n then f (s.dp n) else s.dp m :=
  tabGet_tabMod _ _ _ _ _
theorem Part.noc_onNoc (s : Part) (n m : Nat) (f : NocPort → NocPort) : (s.onNoc n f).noc m = if m = n then f (s.noc n) else s.noc m :=
  tabGet_tabMod _ _ _ _ _
theorem Part.ws_onWs (s : Part) (n m : Nat) (f : Ws → Ws) : (s.onWs n f).ws m = if m = n then f (s.ws n) else s.ws m :=
  tabGet_tabMod _ _ _ _ _
theorem Part.lg_onLg (s : Part) (n m : Nat) (f : LaneGroup → LaneGroup) : (s.onLg n f).lg m = if m = n then f (s.lg n) else s.lg m :=
  tabGet_tabMod _ _ _ _ _
theorem Part.env_onEnv (s : Part) (n m : Nat) (f : Env → Env) : (s.onEnv n f).env m = if m = n then f (s.env n) else s.env m :=
  tabGet_tabMod _ _ _ _ _
theorem Part.lodge_onLodge (s : Part) (n m : Nat) (f : Lodge → Lodge) :
    (s.onLodge n f).lodge m = if m = n then f (s.lodge n) else s.lodge m := tabGet_tabMod _ _ _ _ _
theorem Part.crg_onCrg (s : Part) (n m : Nat) (f : CrGroup → CrGroup) :
    (s.onCrg n f).crg m = if m = n then f (s.crg n) else s.crg m := tabGet_tabMod _ _ _ _ _

/-- A reader of a unit looks at its table only. -/
theorem Part.seq_congr {s t : Part} (h : t.seqs = s.seqs) (n : Nat) : t.seq n = s.seq n := by simp [Part.seq, h]
theorem Part.dp_congr {s t : Part} (h : t.dps = s.dps) (n : Nat) : t.dp n = s.dp n := by simp [Part.dp, h]
theorem Part.noc_congr {s t : Part} (h : t.nocs = s.nocs) (n : Nat) : t.noc n = s.noc n := by simp [Part.noc, h]
theorem Part.lg_congr {s t : Part} (h : t.gh = s.gh) (n : Nat) : t.lg n = s.lg n := by simp [Part.lg, h]
theorem Part.crg_congr {s t : Part} (h : t.courier = s.courier) (n : Nat) : t.crg n = s.crg n := by simp [Part.crg, h]

/-! ### The registers of a sequencer (R227) -/

theorem Seq.reg_setReg (x : Seq) (i j : Nat) (v : W64) : (x.setReg i v).reg j = if j = i ∧ i ≠ 0 then v else x.reg j := by
  unfold Seq.setReg Seq.reg
  by_cases hi : i = 0
  · subst hi; simp
  · by_cases hj : j = 0
    · subst hj; simp [hi, Ne.symm hi]
    · simp only [hi, hj, if_false, tabGet_tabSet]; by_cases h : j = i <;> simp [h, hi]

/-! ### The Guestbook (R310) -/

/-- A request that goes out changes its NoC port and what has been sent. -/
theorem Part.nocOne_eq {s t : Part} {p : Nat} (h : s.nocOne p = some t) :
    t = { s with nocs := t.nocs, out := t.out } ∧ ∀ m, m ≠ p → t.noc m = s.noc m := by
  unfold Part.nocOne at h
  dsimp only at h
  split at h
  · simp only [Option.ite_none_right_eq_some, Option.some.injEq] at h
    obtain ⟨-, rfl⟩ := h
    refine ⟨rfl, fun m hm => ?_⟩
    rw [Part.noc_congr (Part.emit_nocs _ _), Part.noc_onNoc, if_neg hm]
  · cases h
/-- Requests that go out change their NoC port and what has been sent (R50, R51). -/
theorem Part.nocPump_eq (p n : Nat) : ∀ s : Part,
    s.nocPump p n = { s with nocs := (s.nocPump p n).nocs, out := (s.nocPump p n).out } ∧ ∀ m, m ≠ p → (s.nocPump p n).noc m = s.noc m := by
  induction n with
  | zero => exact fun s => ⟨rfl, fun _ _ => rfl⟩
  | succ n ih =>
    intro s
    unfold Part.nocPump
    split
    · rename_i t h
      have h := Part.nocOne_eq h
      exact ⟨by rw [(ih t).1, h.1], fun m hm => ((ih t).2 m hm).trans (h.2 m hm)⟩
    · exact ⟨rfl, fun _ _ => rfl⟩
/-- A write to die memory changes its NoC port and what has been sent. -/
theorem Part.nocWrite_eq (s : Part) (p off : Nat) (d : List Byte) (u : NocUse) :
    s.nocWrite p off d u = { s with nocs := (s.nocWrite p off d u).nocs, out := (s.nocWrite p off d u).out }
      ∧ ∀ m, m ≠ p → (s.nocWrite p off d u).noc m = s.noc m := by
  unfold Part.nocWrite
  refine ⟨?_, fun m hm => ?_⟩
  · rw [(Part.nocPump_eq _ _ _).1]; rfl
  · rw [(Part.nocPump_eq _ _ _).2 m hm, Part.noc_onNoc, if_neg hm]

/-- An entry that goes to the ring changes the Guestbook, the NoC port and what has been sent. -/
theorem Part.ringWrite_eq (s : Part) (e : GuestEntry) :
    s.ringWrite e = { s with gb := (s.ringWrite e).gb, nocs := (s.ringWrite e).nocs, out := (s.ringWrite e).out } := by
  obtain ⟨a, ha⟩ : ∃ a, a = s.nocWrite 8 (s.gb.place s.gb.wr.toNat).toNat (slice e.bytes 0 8) (.guest s.gb.wr) := ⟨_, rfl⟩
  obtain ⟨b, hb⟩ : ∃ b, b = a.nocWrite 8 ((s.gb.place s.gb.wr.toNat).toNat + 12) (slice e.bytes 12 20) (.guest s.gb.wr) := ⟨_, rfl⟩
  obtain ⟨c, hc⟩ : ∃ c, c = b.nocWrite 8 ((s.gb.place s.gb.wr.toNat).toNat + 8) (slice e.bytes 8 4) (.guest s.gb.wr) := ⟨_, rfl⟩
  have h : s.ringWrite e = c.onGb fun g => { g with wr := g.wr + 1 } := by simp only [Part.ringWrite, hc, hb, ha]
  have ea : a = { s with nocs := a.nocs, out := a.out } := ha ▸ (Part.nocWrite_eq s _ _ _ _).1
  have eb : b = { a with nocs := b.nocs, out := b.out } := hb ▸ (Part.nocWrite_eq a _ _ _ _).1
  have ec : c = { b with nocs := c.nocs, out := c.out } := hc ▸ (Part.nocWrite_eq b _ _ _ _).1
  rw [h, ec, eb, ea]
  rfl
/-- An entry of the Guestbook changes the Guestbook, Gatehouse NoC port 0 and what has been sent (R310). -/
theorem Part.guestWrite_eq (s : Part) (e : GuestEntry) :
    s.guestWrite e = { s with gb := (s.guestWrite e).gb, nocs := (s.guestWrite e).nocs, out := (s.guestWrite e).out } := by
  unfold Part.guestWrite
  split
  · rfl
  · rw [Part.ringWrite_eq]
/-- On its way to the ring an entry changes the Guestbook, the NoC port, what has been sent, and K3's queue (R291, R302). -/
theorem Part.toK3_eq (s : Part) (e : GuestEntry) :
    s.toK3 e = { s with gb := (s.toK3 e).gb, nocs := (s.toK3 e).nocs, out := (s.toK3 e).out, mb := (s.toK3 e).mb } := by
  unfold Part.toK3
  split
  · rw [Part.guestWrite_eq]
  · split <;> rfl
/-- While K3 executes, its queue does not change. -/
theorem Part.toK3_up (s : Part) (e : GuestEntry) (h : s.mb.runs 3 = true) : s.toK3 e = s.guestWrite e := by simp [Part.toK3, h]
/-- A trace point changes the Guestbook, the NoC port, what has been sent, and while K3 is down its queue. -/
theorem Part.guest_eq (s : Part) (src level : Nat) (tp : W16) (args : List W32) :
    s.guest src level tp args =
      { s with
        gb := (s.guest src level tp args).gb
        nocs := (s.guest src level tp args).nocs
        out := (s.guest src level tp args).out
        mb := (s.guest src level tp args).mb } := by
  unfold Part.guest
  split
  · simp only
    rw [Part.toK3_eq]
    rfl
  · rfl

/-! ### The mirror (R18) -/

/-- Mirroring changes the twin block and what the part has sent, nothing else. -/
theorem Part.mirror_eq (s : Part) (it : MirrorItem) : s.mirror it = { s with twin := (s.mirror it).twin, out := (s.mirror it).out } := by
  unfold Part.mirror
  split <;> rfl
theorem Part.mirrorSeq_eq (s : Part) (q : Nat) : s.mirrorSeq q = { s with twin := (s.mirrorSeq q).twin, out := (s.mirrorSeq q).out } :=
  Part.mirror_eq _ _
theorem Part.mirrorSeq_seq (s : Part) (q n : Nat) : (s.mirrorSeq q).seq n = s.seq n := by rw [Part.mirrorSeq_eq]; rfl

/-- The notice to the twin keeps mode, timers and the mirror of the twin. -/
theorem Part.mirror_twin (s : Part) (it : MirrorItem) :
    (s.mirror it).twin = s.twin ∨ (s.mirror it).twin
      = { s.twin with txWords := ((s.twin.txSeq, it) :: s.twin.txWords).take 32768, txSeq := s.twin.txSeq + 1, lastTx := s.now } := by
  unfold Part.mirror
  split
  · exact .inr rfl
  · exact .inl rfl

/-! ### The end of a command -/

/-- A sequencer that does not wait for a place. -/
theorem placeFree_retest {s : Part} (h : s.NoPlaceWait) : s.retestPlaces = s := by
  unfold Part.retestPlaces Part.each
  generalize hl : List.range 9 = l
  have hm : ∀ q ∈ l, q < 9 := by intro q hq; rw [← hl] at hq; simpa using hq
  clear hl
  induction l with
  | nil => rfl
  | cons q t ih =>
    have hq := h q (hm q (by simp))
    have ht := ih fun r hr => hm r (by simp [hr])
    simp only [List.foldl_cons]
    unfold WaitFor.place at hq
    cases hw : (s.seq q).wait with
    | cvt d u => simp [hw] at hq
    | xfer d u => simp [hw] at hq
    | tetherBusy d u => simp [hw] at hq
    | _ => simpa [hw] using ht

theorem flush_nil (n : Nat) {s : Part} (h : s.ctlOut = []) : s.flush n = s := by
  cases n with
  | zero => rfl
  | succ n => simp [Part.flush, h]

/-- Ports that hold no descriptor outside take none. -/
theorem takeOffers_none {s : Part} (h : ∀ p ∈ s.dps, p.2.offers = []) : s.takeOffers = s := by
  unfold Part.takeOffers Part.each
  generalize s.dps = l at h
  induction l with
  | nil => rfl
  | cons p t ih => simp [h p (by simp), ih fun x hx => h x (by simp [hx])]

theorem takeLoops_nil (n : Nat) {s : Part} (h : s.gh.loops = []) : s.takeLoops n = s := by
  cases n with
  | zero => rfl
  | succ n => simp [Part.takeLoops, h]

/-- In a calm state the end of a command is its stamp. -/
theorem settle_calm {s : Part} (h : s.Calm) : s.settle = s.finish := by
  obtain ⟨h1, h2, ⟨h3, h4, h6⟩, h5⟩ := h
  unfold Part.settle
  rw [takeLoops_nil _ h6, flush_nil _ h1, takeOffers_none h3, placeFree_retest h5]
  have : s.pumpXfers = s := by unfold Part.pumpXfers Part.pumpOut Part.each; rw [h4]; simp [h2]
  rw [this, flush_nil _ h1]

/-- Calm is about six fields. -/
theorem Part.Calm.congr {s t : Part} (h : s.Calm) (h1 : t.ctlOut = s.ctlOut) (h2 : t.gh.xfers = s.gh.xfers) (h3 : t.dps = s.dps)
    (h4 : t.gh.outbox = s.gh.outbox) (h6 : t.gh.loops = s.gh.loops) (h5 : t.seqs = s.seqs) : t.Calm := by
  refine ⟨h1.trans h.1, h2.trans h.2.1, ⟨h3 ▸ h.2.2.1.1, h4.trans h.2.2.1.2.1, h6.trans h.2.2.1.2.2⟩, fun q hq => ?_⟩
  rw [Part.seq_congr h5]; exact h.2.2.2 q hq

/-- A change of a sequencer that leaves no wait for a place keeps calm. -/
theorem Part.Calm.onSeq {s : Part} (h : s.Calm) (n : Nat) (f : Seq → Seq) (hf : (f (s.seq n)).wait.place = false) : (s.onSeq n f).Calm := by
  refine ⟨h.1, h.2.1, h.2.2.1, fun q hq => ?_⟩
  rw [Part.seq_onSeq]
  by_cases hn : q = n
  · subst hn; simpa using hf
  · simpa [hn] using h.2.2.2 q hq

theorem Part.Calm.mirror {s : Part} (h : s.Calm) (it : MirrorItem) : (s.mirror it).Calm := by
  rw [Part.mirror_eq]; exact h.congr rfl rfl rfl rfl rfl rfl

/-- An open window lets a write through. -/
theorem whenOpen_eq {s : Part} (h : s.shut = false) (f : Part → Part) : s.whenOpen f = f s := by simp [Part.whenOpen, h]

/-! ### Instructions at their sequencer (R226, R230, R255) -/

/-- A word of this instruction with no reserved field set, on a sequencer that runs it, acts. -/
theorem instr_runs {s : Part} {q : Nat} {w : W64} (h : s.Issues q w) {opc : Nat} {this res : W64 → Bool} {body : Part → W64 → Part}
    (ho : IW.opc w = opc) (ht : this w = true) (hr : res w = false) (hu : unitOk q opc = true) :
    s.instr q opc this res body = ((body s w).mirrorSeq q).seqLeft q := by
  obtain ⟨h1, h2, h3⟩ := h
  simp [Part.instr, h1, h2, h3, ho, ht, hr, hu]

/-- What a sequencer's command leaves of the part: a change of that sequencer, its mirror and its stamp. -/
theorem seqCommand_frame (s : Part) (q : Nat) (f : Seq → Seq) :
    let t := ((s.onSeq q f).mirrorSeq q).finish
    s.OnlySeqs t ∧ t.seq q = f (s.seq q) ∧ ∀ n, n ≠ q → t.seq n = s.seq n := by
  intro t
  have hs : ∀ n, t.seq n = (s.onSeq q f).seq n := fun n => (Part.seq_congr rfl n).trans (Part.mirrorSeq_seq _ _ _)
  refine ⟨⟨?_, ?_, ?_, ?_⟩, ?_, ?_⟩
  · obtain ⟨w, o, h⟩ : ∃ w o, (s.onSeq q f).mirrorSeq q = { s.onSeq q f with twin := w, out := o } := ⟨_, _, Part.mirrorSeq_eq _ _⟩
    show t = _
    simp only [t, h]; rfl
  · have e : t.pwr = s.pwr := by
      show ((s.onSeq q f).mirrorSeq q).finish.pwr = _
      rw [Part.mirrorSeq_eq]; rfl
    show t.pwr = { s.pwr with trigAt := t.pwr.trigAt }
    rw [e]
  · show t.twin = _
    rcases Part.mirror_twin (s.onSeq q f) (.sequencerState (Fin.ofNat 9 q) ((s.onSeq q f).seq q).image) with h | h
    · have : t.twin = s.twin := h
      simp only [this]
    · have : t.twin = _ := h
      simp only [this]; rfl
  · show ((s.onSeq q f).mirrorSeq q).finish.glob = _
    rw [Part.mirrorSeq_eq]; rfl
  · rw [hs, Part.seq_onSeq]; simp
  · intro n hn; rw [hs, Part.seq_onSeq]; simp [hn]

/-! ### Step -/

/-- The command in front of the queue acts on the state with the rest of the queue. -/
theorem step_cons (s : State) (c : Instr) (rest : List Instr) (h : s.pending = c :: rest) : step s = exec c { s with pending := rest } := by
  simp [step, h]

end Sys2Proof.Machine
end

