-- ==== Sys2Proof/Tests/Slice0.lean ====
section
/-! SUPPORT. The author's tests: ill-formed commands that WellFormed refuses, the spec's worked examples, states and operands that meet the
hypotheses of each statement (`test_wit_<statement>`: clause by clause, windows at their last nanosecond and at their end), and single
steps. -/

set_option maxRecDepth 20000
set_option exponentiation.threshold 4096

namespace Sys2Proof.Tests

open Sys2Proof Sys2Proof.Machine

/-! ### Sample states -/

/-- A ready part. -/
def p0 : Part := { Part.reset 0 with pwr := { Pwr.reset with bootStep := 11 } }
def st (p : Part) : State := { State.reset with part := p }
/-- The part at a time. -/
def tm (n : Nat) (p : Part) : Part := { p with glob := { p.glob with time := n } }
/-- An instruction word or block from (value, lowest bit) pairs, by the encodings of R232 to R254. -/
def bitsOf (l : List (Nat × Nat)) : Nat := l.foldl (fun a k => a + k.1 * 2 ^ k.2) 0
def iw (l : List (Nat × Nat)) : W64 := BitVec.ofNat 64 (bitsOf l)
/-- Sequencer `q` runs the words `ws`. -/
def sq (q : Nat) (ws : List W64) (p : Part) (f : Seq → Seq := id) : Part :=
  p.onSeq q fun x => f { x with st := 1, loaded := true, spool := ws }
/-- The state in which sequencer 2 has one word to issue. -/
def at2 (w : W64) (f : Seq → Seq := id) : State := st (sq 2 [w] p0 f)
/-- The outcome's part, for tests on fixed values. -/
def partOf (s : State) (r : Host.Outcome State Fault Refusal) : Part :=
  match r with
  | .next t => t.part
  | _ => s.part
def runs (c : Instr) (s : State) (P : Part → Bool) : Bool :=
  match exec c s with
  | .next t => P t.part
  | _ => false

/-! ### Well-formedness: for each check a term that it refuses, beside one that it takes -/

theorem test_wf_row : (Instr.accRowArrive 0 (List.replicate 127 0) false).wf = false ∧ (Instr.accRowArrive 0 (List.replicate 128 0) false).wf = true := by decide
theorem test_wf_lodge_bad : (Instr.lodgeCloseDone 0 [(128, .uncorrectable 0)]).wf = false ∧ (Instr.lodgeCloseDone 0 [(127, .uncorrectable 0)]).wf = true := by decide
theorem test_wf_beat :
    (Instr.nocReadData 0 0 [] 0).wf = false ∧ (Instr.nocReadData 0 0 (List.replicate 65 0) 0).wf = false ∧ (Instr.nocReadData 0 0 (List.replicate 1088 0) 0).wf = false
      ∧ (Instr.nocReadData 0 0 (List.replicate 1024 0) 0).wf = true := by decide
theorem test_wf_credits :
    (Instr.larderRequest 0 0 0).wf = false ∧ (Instr.larderRequest 0 0 4097).wf = false ∧ (Instr.larderRequest 0 0 4096).wf = true := by decide
theorem test_wf_flit : (Instr.flitReceive 0 0 (List.replicate 239 0) false).wf = false ∧ (Instr.flitReceive 0 0 (List.replicate 240 0) false).wf = true := by decide
theorem test_wf_init : (Instr.linkInit 0 (List.replicate 5 0)).wf = false ∧ (Instr.linkCreditReturn 0 (List.replicate 7 0)).wf = false
    ∧ (Instr.linkInit 0 (List.replicate 6 0)).wf = true := by decide
theorem test_wf_courier (r : CourierRec) : (Instr.courierUpFlit { r with data := List.replicate 17 0 }).wf = false
    ∧ (Instr.courierDownFlit { r with data := List.replicate 17 0 }).wf = false ∧ (Instr.courierUpFlit { r with data := List.replicate 16 0 }).wf = true := by
  simp [Instr.wf]
theorem test_wf_tables (c : Ctrl) (g : GroupImage) (m : Member) (n : Nat) (h : 65536 < n) :
    (Instr.spare c { g with members := List.replicate n m }).wf = false ∧ (Instr.groupForm 0 (some { g with members := List.replicate n m }) 0).wf = false
      ∧ (Instr.calLoad 0 0 (some (List.replicate n 0))).wf = false ∧ (Instr.spare c { g with members := [m] }).wf = true ∧ (Instr.groupForm 0 none 0).wf = true := by
  simp [Instr.wf, h]
theorem test_wf_chunk : (Instr.hopBudgetExpiry 0 4294967296).wf = false ∧ (Instr.startWindowExpiry 0 4294967296).wf = false
    ∧ (Instr.stallWindowExpiry 0 4294967296).wf = false ∧ (Instr.hopBudgetExpiry 0 4294967295).wf = true := by decide
theorem test_wf_twin_word : (Instr.twinWordReceive 0 (List.replicate 25 0) 0 ⟨.nothing, none⟩).wf = false ∧ (Instr.twinWordReceive 0 (List.replicate 26 0) 0 ⟨.nothing, none⟩).wf = true := by
  decide

/-- The table gives no row any bits: no word spells a command, and a state is left as it is. -/
theorem test_no_word_decodes : decodeTableWord 32 0 = none ∧ State.reset.withFetchWord 32 0 = State.reset := by decide

/-! ### Worked examples of the spec -/

/-- 03_number_formats.md, "one record". -/
theorem test_example_record :
    (({ baseRec 0x0123 true false false false with scale := 0x3CC8 } : Rec).word = 0x0123000108003CC8) ∧ (Rec.ofWord 0x0123000108003CC8).rotated = true
      ∧ toBytes 8 0x0123000108003CC8 = [0xC8, 0x3C, 0x00, 0x08, 0x01, 0x00, 0x23, 0x01] := by decide

/-- 04_conversion_arithmetic.md, "symmetric INT8": 5.3125, −2.75, 1.0, 0.10498046875 and 0.0625. -/
theorem test_example_int8 :
    symScale .int8 false (some ⟨85, 16⟩) = 0x3D2C
      ∧ ([((85 : Int), 16), (-11, 4), (1, 1), (215, 2048), (1, 16)] : List (Int × Nat)).map (fun q => (encodeElem .int8 false 0x3D2C 0 (.fin ⟨q.1, q.2⟩ false)).code)
          = [0x7F, 0xBF, 0x18, 0x02, 0x01] := by decide

/-- 04_conversion_arithmetic.md, "asymmetric UINT8": 6.5, 1.25, 0 and −0.75. -/
theorem test_example_uint8 :
    asymScale .uint8 false (some ⟨-3, 4⟩) (some ⟨13, 2⟩) = (0x3CE9, 0x9A)
      ∧ ([((13 : Int), 2), (5, 4), (0, 1), (-3, 4)] : List (Int × Nat)).map (fun q => (encodeElem .uint8 true 0x3CE9 0x9A (.fin ⟨q.1, q.2⟩ false)).code)
          = [255, 70, 26, 0] := by decide

/-- 04_conversion_arithmetic.md, "E4M3 with rotation": the block, its scale, its codes, and what the receiver recovers. -/
theorem test_example_rotation :
    let blk : List Val := [.fin ⟨12, 1⟩ false, .fin ⟨1, 2⟩ false, .fin ⟨-1, 1⟩ false, .fin ⟨1, 4⟩ false] ++ List.replicate 12 Val.zero
    let y := (rotateUnit false 16 blk).1
    let same (v : Val) (n : Int) (d : Nat) : Bool := match v.fin? with | some q => Q.eq q ⟨n, d⟩ | none => false
    (same (y.getD 0 .zero) 47 16 && same (y.getD 1 .zero) 41 16 && same (y.getD 2 .zero) 53 16 && same (y.getD 3 .zero) 51 16 && same (y.getD 13 .zero) 41 16) = true
      ∧ symScale .e4m3 false (amaxOf y) = 0x3BF3 ∧ (y.take 4).map (fun v => (encodeElem .e4m3 false 0x3BF3 0 v).code) = [0x7C, 0x7B, 0x7E, 0x7D]
      ∧ (let r := (rotateUnit true 16 (y.map fun v => decodeElem .e4m3 0x3BF3 0 (encodeElem .e4m3 false 0x3BF3 0 v).code)).1
         (same (r.getD 0 .zero) 11865234375 1000000000 && same (r.getD 1 .zero) 474609375 1000000000 && same (r.getD 2 .zero) (-94921875) 100000000
           && same (r.getD 3 .zero) 0 1 && same (r.getD 9 .zero) 0 1) = true) := by decide

/-- 05_scale_modes_and_calibration.md, "a forecast that misfits": 1.125 × 4.25. -/
theorem test_example_forecast : symScale .int8 false (some ⟨153, 32⟩) = 0x3D1B := by decide

/-- 06_drain_and_fused_chains.md, "where the bits part": the descriptor. -/
theorem test_example_descriptor :
    let d : BitVec 128 := 0x00105000000000000004001FC1025518
    Desc.chain d = 8 ∧ Desc.stagewise d = true ∧ Desc.tfmt d = 8 ∧ Desc.ifmtBf d = true ∧ Desc.stream d = 37 ∧ Desc.slot d = 1 ∧ Desc.ctx d = 0 ∧ Desc.dest d = 0
      ∧ Desc.rows d = 128 ∧ Desc.tile d = 0 ∧ Desc.rowblk d = 2 ∧ Desc.event d = 5 ∧ Desc.evtEn d = true ∧ Desc.reserved d = 0 := by decide

/-- 09_instruction_set.md, "a rack all-reduce": two words worked out there. -/
theorem test_example_words :
    IW.opc 0x0002140100314010 = 0x10 ∧ IW.gc 0x0002140100314010 = 5 ∧ fld (0x0002140100314010 : W64) 20 6 = 3 ∧ fld (0x0002140100314010 : W64) 26 15 = 0x40
      ∧ fld (0x0002140100314010 : W64) 41 8 = 10 ∧ bitOf (0x0002140100314010 : W64) 49 = true
      ∧ IW.opc 0x007A120004280098 = 0x18 ∧ IW.ga 0x007A120004280098 = 2 ∧ fld (0x007A120004280098 : W64) 18 8 = 10 ∧ fld (0x007A120004280098 : W64) 26 8 = 1
      ∧ fld (0x007A120004280098 : W64) 34 24 = 2000000 := by decide

/-- 13_register_map.md, "Addresses worked from the map": the window offsets of three registers. -/
theorem test_example_addresses :
    (p0.onSeq 8 fun x => { x with st := 3 }).regRead 0xA404 = some 3
      ∧ ({ p0 with twin := { p0.twin with st := 4 } }.regRead 0xD204).map (fun v => fld v 0 3) = some 4
      ∧ { p0 with mb := { p0.mb with hbCount := 7 } }.regRead 0xD060 = some 7
      ∧ (p0.onDp 37 fun d => { d with ctx1 := { d.ctx1 with smooth := 0x123456789A } }).regRead 0x65A4 = some 0x12 := by decide

/-! ### Witnesses: states and operands that meet the hypotheses of each statement -/

theorem test_wit_FetchWritesRegister :
    (let w := iw [(1, 0), (3, 6), (5, 32)]; (at2 w).part.Issues 2 w ∧ IW.opc w = 1 ∧ fld w 21 11 = 0 ∧ IW.sub w = 0 ∧ IW.gb w = 0 ∧ IW.gc w = 0)
    ∧ (let w := iw [(1, 0), (0, 6), (15, 10), (1, 18), (0xFFFFFFFF, 32)]
       (at2 w).part.Issues 2 w ∧ IW.opc w = 1 ∧ fld w 21 11 = 0 ∧ IW.sub w = 1 ∧ IW.gc w = 0)
    ∧ (let w := iw [(1, 0), (15, 6), (1, 10), (2, 14), (2, 18)]; (at2 w).part.Issues 2 w ∧ IW.opc w = 1 ∧ fld w 21 11 = 0 ∧ IW.sub w = 2)
    ∧ (let w := iw [(1, 0), (3, 6), (3, 18)]
       (at2 w).part.Issues 2 w ∧ IW.opc w = 1 ∧ fld w 21 11 = 0 ∧ IW.sub w = 3 ∧ IW.gb w = 0 ∧ IW.gc w = 0 ∧ fld w 47 17 = 0
         ∧ ((at2 w).part.seq 2).spool[fld w 32 15]? = some w) := by
  try dsimp only
  and_intros <;> decide

theorem test_wit_Statistics :
    (∀ sub, sub < 4 → let w := iw [(9, 0), (if sub = 3 then 0 else 3, 6), (sub, 18), (4095, 21)]
       (at2 w).part.Issues 2 w ∧ IW.opc w = 9 ∧ fld w 33 31 = 0 ∧ IW.gb w = 0 ∧ IW.gc w = 0 ∧ IW.sub w = sub ∧ (sub = 3 → fld w 6 12 = 0))
    ∧ (let w := iw [(10, 0), (3, 6), (1, 10), (8, 21), (7, 26)]
       (at2 w).part.Issues 2 w ∧ IW.opc w = 10 ∧ fld w 38 26 = 0 ∧ IW.gc w = 0 ∧ IW.sub w = 0 ∧ Fmt.ofCode (fld w 21 5) = some .int8 ∧ Fmt.int8.isLedger = true)
    ∧ (let w := iw [(10, 0), (3, 6), (1, 10), (1, 18), (8, 21), (7, 26)]
       (at2 w).part.Issues 2 w ∧ IW.opc w = 10 ∧ fld w 38 26 = 0 ∧ IW.gc w = 0 ∧ IW.sub w = 1 ∧ Fmt.ofCode (fld w 21 5) = some .int8)
    ∧ (let w := iw [(10, 0), (2, 10), (1, 14), (2, 18)]
       (at2 w).part.Issues 2 w ∧ IW.opc w = 10 ∧ fld w 38 26 = 0 ∧ IW.sub w = 2 ∧ IW.ga w = 0 ∧ fld w 21 17 = 0) := by
  try dsimp only
  and_intros <;> decide

/-- R239: each word of the family, with both outcomes of LOOP END and of BR. -/
theorem test_wit_ControlFlow :
    (let w := iw [(0x20, 0), (3, 19), (0xFFFFFF, 21)]
     (at2 w).part.Issues 2 w ∧ IW.opc w = 0x20 ∧ bitOf w 18 = false ∧ fld w 6 12 = 0 ∧ fld w 21 24 ≠ 0 ∧ fld w 45 19 = 0)
    ∧ (let w := iw [(0x20, 0), (1, 18), (3, 19), (1, 6), (2, 14)]
       let s (n : Nat) := at2 w fun x => { x with lcs := [(3, BitVec.ofNat 24 n)] }
       (∀ n, n < 3 → (s n).part.Issues 2 w) ∧ IW.opc w = 0x20 ∧ bitOf w 18 = true ∧ IW.gb w = 0 ∧ fld w 36 28 = 0
         ∧ ((s 1).part.seq 2).lc (fld w 19 2) = 1#24
         ∧ ((s 2).part.seq 2).lc (fld w 19 2) ≠ 0#24 ∧ ((s 2).part.seq 2).lc (fld w 19 2) ≠ 1#24 ∧ fld w 21 15 < ((s 2).part.seq 2).spool.length)
    ∧ (let b (sub ga gb : Nat) : W64 := iw [(0x21, 0), (ga, 6), (gb, 10), (sub, 18)]
       let ok (w : W64) (v : Bool) : Prop :=
         let x := (at2 w).part.seq 2
         (at2 w).part.Issues 2 w ∧ IW.opc w = 0x21 ∧ IW.gc w = 0 ∧ IW.sub w ≠ 7 ∧ fld w 36 28 = 0 ∧ (IW.sub w < 4 → IW.gb w = 0) ∧ (IW.sub w = 0 → IW.ga w = 0)
           ∧ brHolds (IW.sub w) (x.reg (IW.ga w)) (x.reg (IW.gb w)) = v ∧ (v = true → fld w 21 15 < x.spool.length)
       ok (b 0 0 0) true ∧ ok (b 2 1 0) false ∧ ok (b 1 1 0) true ∧ ok (b 3 1 0) false ∧ ok (b 4 1 2) false ∧ ok (b 5 1 2) true ∧ ok (b 6 1 2) true)
    ∧ (let w := iw [(0x22, 0)]; let s := at2 w fun x => { x with stack := List.replicate 7 0 }
       s.part.Issues 2 w ∧ IW.opc w = 0x22 ∧ fld w 6 15 = 0 ∧ fld w 36 28 = 0 ∧ (s.part.seq 2).stack.length < 8 ∧ fld w 21 15 < (s.part.seq 2).spool.length)
    ∧ (let w := iw [(0x23, 0)]; let s := at2 w fun x => { x with stack := [0] }
       s.part.Issues 2 w ∧ IW.opc w = 0x23 ∧ fld w 6 58 = 0 ∧ (s.part.seq 2).stack = 0 :: [] ∧ (0#15).toNat < (s.part.seq 2).spool.length)
    ∧ (let w := iw [(0x24, 0), (255, 18)]; (at2 w).part.Issues 2 w ∧ IW.opc w = 0x24 ∧ fld w 6 12 = 0 ∧ fld w 26 38 = 0) := by
  try dsimp only
  and_intros <;> decide

/-- The faults of R239: LC 0, a full and an empty return stack, targets at the end of the Spool. -/
theorem test_wit_ControlFlow_faults :
    (let w := iw [(0x20, 0), (1, 18), (3, 19), (32767, 21)]
     let s (n : Nat) := at2 w fun x => { x with lcs := [(3, BitVec.ofNat 24 n)] }
     (∀ n, n < 3 → (s n).part.Issues 2 w) ∧ IW.opc w = 0x20 ∧ bitOf w 18 = true ∧ IW.gb w = 0 ∧ fld w 36 28 = 0 ∧ ((s 0).part.seq 2).lc (fld w 19 2) = 0#24
       ∧ ((s 2).part.seq 2).lc (fld w 19 2) ≠ 0#24 ∧ ((s 2).part.seq 2).lc (fld w 19 2) ≠ 1#24 ∧ ((s 2).part.seq 2).spool.length ≤ fld w 21 15)
    ∧ (let w := iw [(0x21, 0), (32767, 21)]
       (at2 w).part.Issues 2 w ∧ IW.opc w = 0x21 ∧ IW.gc w = 0 ∧ IW.sub w = 0 ∧ fld w 36 28 = 0 ∧ IW.gb w = 0 ∧ IW.ga w = 0
         ∧ brHolds 0 (((at2 w).part.seq 2).reg 0) (((at2 w).part.seq 2).reg 0) = true ∧ ((at2 w).part.seq 2).spool.length ≤ fld w 21 15)
    ∧ (let w := iw [(0x22, 0)]; let s := at2 w fun x => { x with stack := List.replicate 8 0 }
       s.part.Issues 2 w ∧ IW.opc w = 0x22 ∧ fld w 6 15 = 0 ∧ fld w 36 28 = 0 ∧ 8 ≤ (s.part.seq 2).stack.length)
    ∧ (let w := iw [(0x22, 0), (32767, 21)]
       (at2 w).part.Issues 2 w ∧ fld w 6 15 = 0 ∧ fld w 36 28 = 0 ∧ ((at2 w).part.seq 2).stack.length < 8 ∧ ((at2 w).part.seq 2).spool.length ≤ fld w 21 15)
    ∧ (let w := iw [(0x23, 0)]; let s := at2 w fun x => { x with stack := [32767] }
       s.part.Issues 2 w ∧ IW.opc w = 0x23 ∧ fld w 6 58 = 0 ∧ (s.part.seq 2).stack = 32767 :: [] ∧ (s.part.seq 2).spool.length ≤ (32767#15).toNat
         ∧ (at2 w).part.Issues 2 w ∧ ((at2 w).part.seq 2).stack = []) := by
  try dsimp only
  and_intros <;> decide

theorem test_wit_EventSignals :
    (∀ q, q < 9 → ((at2 0).part.seq q).wait = .none)
    ∧ (let s (c : Nat) := at2 0 fun x => { x with st := 2, wait := .event 7 2 (some 11) 3, events := [(7, (BitVec.ofNat 8 c, 5))] }
       let x (c : Nat) := (s c).part.seq 2
       ∀ c, c = 1 ∨ c = 2 → (x c).wait = .event (7#8).toNat 2 (some 11) 3 ∧ (tm 10 (s c).part).now < 11 ∧ 2 ≤ ((x c).event 7).1.toNat + 1 ∧ ((x c).event 7).1 ≠ 255#8
         ∧ fld ((x c).event 7).2 8 8 = 0) := by
  refine ⟨by decide, fun c h => ?_⟩
  rcases h with rfl | rfl <;> decide

theorem test_wit_Waitev :
    (let w := iw [(0x18, 0), (3, 6), (7, 18), (2, 26), (1, 34)]
     let s (c : Nat) := at2 w fun x => { x with events := [(7, (BitVec.ofNat 8 c, 5))] }
     (∀ c, c < 3 → (s c).part.Issues 2 w) ∧ IW.opc w = 0x18 ∧ IW.gb w = 0 ∧ IW.gc w = 0 ∧ fld w 58 6 = 0 ∧ fld w 26 8 ≠ 0
       ∧ fld w 26 8 ≤ (((s 2).part.seq 2).event (fld w 18 8)).1.toNat ∧ (((s 1).part.seq 2).event (fld w 18 8)).1.toNat < fld w 26 8)
    ∧ (let s := at2 0 fun x => { x with st := 2, wait := .event 7 2 (some 10) 3 }
       (s.part.seq 2).wait = .event 7 2 (some 10) 3 ∧ 10 ≤ (tm 10 s.part).now)
    ∧ (let s (c : Nat) := at2 0 fun x => { x with st := 2, wait := .event (7#8).toNat 3 (some 10) 3, events := [(7, (BitVec.ofNat 8 c, 5))] }
       let cnt (c : Nat) : Nat := (((s c).part.seq 2).event (7#8).toNat).1.toNat
       ((s 1).part.seq 2).wait = .event (7#8).toNat 3 (some 10) 3 ∧ cnt 1 < 255 ∧ (tm 9 (s 1).part).now < 10 ∧ cnt 1 + 1 < 3 ∧ 3 ≤ cnt 2 + 1 ∧ cnt 254 < 255
         ∧ 10 ≤ (tm 10 (s 1).part).now) := by
  try dsimp only
  and_intros <;> decide

theorem test_wit_SignalReaches :
    (let w := iw [(0x19, 0), (8, 18), (7, 22)]
     (at2 w).part.Issues 2 w ∧ IW.opc w = 0x19 ∧ fld w 6 12 = 0 ∧ fld w 38 26 = 0 ∧ fld w 18 4 < 9 ∧ fld w 18 4 ≠ 2
       ∧ ((at2 w).part.seq (fld w 18 4)).wait = .none ∧ (((at2 w).part.seq (fld w 18 4)).event (fld w 22 8)).1 ≠ 255#8)
    ∧ (let w := iw [(0x19, 0), (2, 18), (7, 22)]
       let s := at2 w fun x => { x with events := [(7, (255, 0))] }
       s.part.Issues 2 w ∧ IW.opc w = 0x19 ∧ fld w 6 12 = 0 ∧ fld w 38 26 = 0 ∧ fld w 18 4 = 2 ∧ ((s.part.seq 2).event (fld w 22 8)).1 = 255#8)
    ∧ (let w := iw [(0x19, 0), (9, 18), (7, 22)]
       let p := { (at2 w).part with mb := { Mb.reset with keeperUp := 15, noteBase := 64, noteSize := 4, noteWr := 15 } }
       p.Issues 2 w ∧ IW.opc w = 0x19 ∧ fld w 6 12 = 0 ∧ fld w 38 26 = 0 ∧ fld w 18 4 = 9 ∧ p.mb.runs 1 = true ∧ p.mb.noteBase ≠ 0
         ∧ (p.mb.noteWr - p.mb.noteRd).toNat ≠ 2 ^ fld p.mb.noteSize 0 5) := by
  try dsimp only
  and_intros <;> decide

/-- With nothing outstanding, with a word store outstanding, and with one failed. -/
theorem test_wit_FenceWaitsForScopes :
    let w := iw [(0x1B, 0), (15, 18)]
    let s (n : Nat) (f : Bool) := at2 w fun x => { x with stores := n, wstoreFlag := f }
    let done (s : State) : Prop := let x := s.part.seq 2
      (bitOf w 18 = true → x.stores = 0) ∧ (bitOf w 19 = true → x.drains = 0) ∧ (bitOf w 20 = true → ∀ k ∈ s.part.gh.xfers, k.2.seq ≠ 2)
        ∧ (bitOf w 21 = true → s.part.ctxs = [])
    (s 0 false).part.Issues 2 w ∧ (s 0 true).part.Issues 2 w ∧ (s 1 false).part.Issues 2 w ∧ IW.opc w = 0x1B ∧ fld w 6 12 = 0 ∧ fld w 22 42 = 0 ∧ fld w 18 4 ≠ 0
      ∧ done (s 0 false) ∧ ((s 0 false).part.seq 2).wstoreFlag = false
      ∧ done (s 0 true) ∧ bitOf w 18 = true ∧ ((s 0 true).part.seq 2).wstoreFlag = true
      ∧ ¬ done (s 1 false) := by
  try dsimp only
  and_intros <;> decide

/-- A FENCE that waits, with the last word store outstanding and with one before it, without and with a failed one. -/
theorem test_wit_FenceWaitsForScopes_end :
    let x (n : Nat) (f : Bool) : Part := ((at2 0 fun y => { y with st := 2, wait := .fence 1, stores := n, wstoreFlag := f }).part).onNoc 2 fun p =>
      { p with openReqs := [(5, (⟨true, 64, 64, [], .store 2, []⟩, 64))] }
    (x 1 false).Calm ∧ (∀ m, m < 9 → m ≠ 2 → ((x 1 false).seq m).wait.isFence = false) ∧ ((x 1 false).noc 2).waiting = []
      ∧ tabFind ((x 1 false).noc 2).openReqs (5#8).toNat = some (⟨true, 64, 64, [], .store 2, []⟩, 64) ∧ ((x 1 false).seq 2).wait = .fence 1
      ∧ 1 < ((x 2 false).seq 2).stores ∧ ((x 1 false).seq 2).stores = 1 ∧ ((x 1 false).seq 2).wstoreFlag = false ∧ ((x 1 true).seq 2).wstoreFlag = true := by
  try dsimp only
  and_intros <;> decide

/-- Steps at and around the one marked, off the source and at it; the host as source; STEP_SRC values where the ranges meet. -/
theorem test_wit_StepMarks :
    (let w (k : Nat) := iw [(0x1A, 0), (k, 18)]
     let s (src : BitVec 4) (k : Nat) : State := let p := (at2 (w k)).part; st { p with glob := { p.glob with stepSrcEff := src, step := 5 } }
     let ok (src : BitVec 4) (k : Nat) : Prop := (s src k).part.Issues 2 (w k) ∧ (s src k).part.Calm ∧ IW.opc (w k) = 0x1A ∧ IW.gb (w k) = 0 ∧ IW.gc (w k) = 0
       ∧ fld (w k) 50 14 = 0
     let m (src : BitVec 4) (k : Nat) : W32 := BitVec.ofNat 32 (fld (w k) 18 32 + (((s src k).part.seq 2).reg (IW.ga (w k))).toNat)
     (ok 0 5 ∧ (0#4).toNat ≠ 2 ∧ ((s 0 5).part.glob.step - m 0 5).toNat < 2 ^ 31)
       ∧ (ok 0 6 ∧ 2 ^ 31 ≤ ((s 0 6).part.glob.step - m 0 6).toNat)
       ∧ (ok 2 7 ∧ (s 2 7).part.glob.stepSrcEff.toNat = 2 ∧ m 2 7 ≠ (s 2 7).part.glob.step + 1)
       ∧ (ok 2 6 ∧ m 2 6 = (s 2 6).part.glob.step + 1 ∧ (s 2 6).part.groups = [] ∧ (s 2 6).part.gh.helds = [] ∧ (s 2 6).part.mb.st ≠ 4#4))
    ∧ (let p := { p0 with glob := { p0.glob with stepSrcEff := 15, step := 0xFFFFFFFF } }
       p.shut = false ∧ p.Calm ∧ p.groups = [] ∧ p.gh.helds = [] ∧ p.mb.st ≠ 4#4 ∧ p.glob.stepSrcEff = 15#4 ∧ 0#32 = p.glob.step + 1)
    ∧ (p0.shut = false ∧ p0.glob.accessErr = false ∧ fld (8 : W32) 0 4 < 9 ∧ fld (15 : W32) 0 4 = 15 ∧ 9 ≤ fld (9 : W32) 0 4 ∧ fld (9 : W32) 0 4 ≤ 14
       ∧ 9 ≤ fld (14 : W32) 0 4 ∧ fld (14 : W32) 0 4 ≤ 14) := by
  try dsimp only
  and_intros <;> decide

theorem test_wit_WordAccesses :
    (let w := iw [(1, 0), (3, 6), (2, 10), (4, 18), (0x38, 32)]
     let p := (at2 w).part
     let a := (p.seq 2).reg (IW.gb w) + BitVec.ofInt 64 (IW.imm w)
     p.Issues 2 w ∧ (p.noc 2).waiting = [] ∧ (p.noc 2).openReqs = [] ∧ (p.noc 2).merging = false ∧ 1 ≤ (p.noc 2).reqCr ∧ IW.opc w = 1 ∧ IW.sub w = 4 ∧ fld w 21 11 = 0
       ∧ IW.gc w = 0 ∧ a.toNat % 8 = 0 ∧ a.toNat < 2 ^ 47)
    ∧ (let w := iw [(2, 0), (3, 6), (2, 10), (1, 18), (8, 32)]
       let p := (at2 w fun x => { x with regs := [(3, BitVec.ofNat 64 (2 ^ 47 - 16))] }).part
       let a := (p.seq 2).reg (IW.ga w) + BitVec.ofInt 64 (IW.imm w)
       p.Issues 2 w ∧ IW.opc w = 2 ∧ bitOf w 18 = true ∧ fld w 19 13 = 0 ∧ IW.gc w = 0 ∧ a.toNat % 8 = 0 ∧ a.toNat < 2 ^ 47) := by
  try dsimp only
  and_intros <;> decide

theorem test_wit_SequencerControls :
    p0.shut = false ∧ p0.glob.accessErr = false
      ∧ (let y := p0.onSeq 2 fun x => { x with st := 3, loaded := true }
         let x := y.seq 2
         (x.st ≠ 1#3 ∧ x.st ≠ 2#3) ∧ x.loaded = true ∧ y.glob.fencedSelf = false
           ∧ ¬ ({ y with glob := { y.glob with fencedSelf := true } } : Part).glob.fencedSelf = false)
      ∧ (let x := (at2 0).part.seq 2; (x.st = 1#3 ∨ x.st = 2#3) ∧ ¬ ((x.st ≠ 1#3 ∧ x.st ≠ 2#3) ∧ x.loaded = true))
      ∧ (let x := p0.seq 2; (x.st ≠ 1#3 ∧ x.st ≠ 2#3) ∧ x.lenReg = 0#16)
      ∧ (let x := (p0.onSeq 2 fun x => { x with lenReg := 32768 }).seq 2; x.st ≠ 1#3 ∧ x.st ≠ 2#3 ∧ x.lenReg ≠ 0#16 ∧ x.lenReg.toNat ≤ 32768)
      ∧ (let x := (p0.onSeq 2 fun x => { x with lenReg := 32769 }).seq 2; x.st ≠ 1#3 ∧ x.st ≠ 2#3 ∧ 32768 < x.lenReg.toNat) := by
  try dsimp only
  and_intros <;> decide

theorem test_wit_IllegalOpcodeFaults :
    (at2 0).part.Issues 2 0 ∧ IW.opc 0 ∉ opcodes ∧ (at2 0x3F).part.Issues 2 0x3F ∧ IW.opc 0x3F ∉ opcodes ∧ (at2 0x24).part.Issues 2 0x24 := by
  try dsimp only
  and_intros <;> decide

/-- Two low halves written and waiting, one read latched. -/
theorem test_wit_RegisterWrites :
    let p := { p0 with glob := { p0.glob with lowHold := [(0x8010, 5), (0x9C10, 6), (0xD070, 7), (0xD220, 8)] } }
    p.shut = false ∧ p.Calm ∧ p.larder.showActive = false ∧ 15 < p.larder.pendingSet.floors.length ∧ 15 < p.larder.pendingSet.ceils.length
      ∧ tabFind p.glob.lowHold 0xD070 = some 7 ∧ tabFind p.glob.lowHold 0xD220 = some 8 ∧ tabFind p.glob.lowHold 0x8010 = some 5
      ∧ tabFind p.glob.lowHold (0x8010 + 0x400 * 7) = some 6 := by
  try dsimp only
  and_intros <;> decide

theorem test_wit_WriteOneToClear : p0.shut = false ∧ p0.Calm := by
  try dsimp only
  and_intros <;> decide

theorem test_wit_RefusedAndIgnored :
    (Part.reset 0).Calm ∧ (Part.reset 0).shut = true ∧ p0.Calm ∧ p0.shut = false ∧ p0.regRead 0xFFFFC = none ∧ p0.regRead 0x028 = none := by
  try dsimp only
  and_intros <;> decide

/-- The pairs of R12 at both ends of the window, and a latched high half. -/
theorem test_wit_SideEffectsOfReads :
    let p := { p0 with glob := { p0.glob with latch := [(0x114, 9)], lowHold := [(0xD070, 7)] } }
    p.shut = false ∧ (0x8010#20).toNat % 4 = 0 ∧ (p.pairAt (0x8010#20).toNat).isSome = true ∧ tabFind p.glob.lowHold (0x8010#20).toNat = none
      ∧ (p.pairAt (0xD220#20).toNat).isSome = true ∧ tabFind p.glob.latch 0x114 = some 9 ∧ tabFind p.glob.lowHold 0xC074 = none := by
  try dsimp only
  and_intros <;> decide

theorem test_wit_IndexedTables :
    p0.shut = false ∧ p0.Mirrors ∧ ¬ { p0 with twin := { p0.twin with mirrorEn := false } }.Mirrors ∧ ¬ { p0 with twin := { p0.twin with st := 1 } }.Mirrors := by
  try dsimp only
  and_intros <;> decide

/-- A staged entry at each edge: ROT_N 5 and 6, LODGE_FB 1 and 2. -/
theorem test_wit_IndexedTables_commit :
    let bad (e : StreamEntry) : Prop := 6 ≤ e.rotN.toNat ∨ e.lodgeFb = 1#2
    p0.shut = false ∧ ¬ bad { StreamEntry.reset with rotN := 5, lodgeFb := 2 } ∧ bad { StreamEntry.reset with rotN := 6 } ∧ bad { StreamEntry.reset with lodgeFb := 1 } := by
  try dsimp only
  and_intros <;> decide

/-- Inside the window, at its end, and outside RUNNING; each way to configure the Guestbook. -/
theorem test_wit_HeartbeatAndGuestbook :
    let p (t : Nat) (s : BitVec 4) := tm t { p0 with mb := { p0.mb with st := s, hbArmed := true }, gb := { p0.gb with staged := [⟨0, 2, 1, [], 0, 0⟩] } }
    let live (p : Part) : Prop := p.mb.st = 3#4 ∧ p.mb.hbLatched = false ∧ p.mb.harbourLate = none ∧ (p.mb.hbArmed = true → p.now < p.mb.hbLast + 200000000)
    p0.shut = false ∧ live (p 199999999 3) ∧ ¬ live (p 200000000 3) ∧ ¬ live (p 0 4) ∧ (64#64).toNat < 2 ^ 47 ∧ (31#32).toNat < 32 ∧ (64#64) ≠ 0 ∧ (31#32) ≠ 0
      ∧ (p 0 2).mb.st.toNat < 3 ∧ ¬ ((p 0 3).mb.st.toNat < 3 ∨ (p 0 3).mb.runs 3 = true) ∧ { (p 0 3).mb with keeperUp := 15 }.runs 3 = true := by
  try dsimp only
  and_intros <;> decide

/-- The first and the last register of the window that a read answers, and the hole of it, with the staged entry and the arguments at their edges. -/
theorem test_wit_WindowCommandsComplete :
    p0.shut = false ∧ p0.regRead (0xFFFFC#20).toNat = none ∧ (0#20).toNat % 4 = 0 ∧ (p0.regRead (0#20).toNat).isSome = true ∧ (0x8010#20).toNat % 4 = 0
      ∧ (p0.regRead (0x8010#20).toNat).isSome = true ∧ (p0.regRead 0xC074).isSome = true ∧ p0.ssu.strData.rotN.toNat < 6 ∧ p0.ssu.strData.lodgeFb ≠ 1#2
      ∧ (BitVec.ofNat 64 (2 ^ 47 - 1)).toNat < 2 ^ 47 ∧ (31#32).toNat < 32 := by
  and_intros <;> decide

/-! Drain ports -/

def jb : DrainJob := p0.newJob 17 0 none (.of .plain)
def lodgeJb : DrainJob := { jb with mode := .lodge, lodge := some 4, started := true, desc := BitVec.ofNat 128 (1 * 2 ^ 30) }
/-- Quads awake. -/
def awake (p : Part) : Part := { p with pwr := { p.pwr with awake := (List.range 16).map fun i => .quad (Fin.ofNat 16 i) } }
def withJob (j : DrainJob) (p : Part := p0) : Part := (awake p).onDp 17 fun d => { d with exec := some j }
/-- A C0 descriptor that passes R155: destination die memory, four rows. -/
def dOk : BitVec 128 := BitVec.ofNat 128 (3 * 2 ^ 30)

/-- What R155's checks give a descriptor at port 17. -/
def codeAt (x : Part) (d : BitVec 128) : Nat :=
  let e := x.stream (Desc.stream d)
  let ph := x.lodgePhase (Desc.lodge d)
  let asks := Desc.asksLodge d e
  let joins := asks && (ph = .opened || ph = .opening)
  let late := asks && ph = .lateWindow && (x.lodge (Desc.lodge d)).stream = Desc.stream d
  let lodges := joins || late || asks && !(x.env (Desc.stream d)).wide && lodgeEligible d e
  descCheck d e ((x.dp 17).ctx (Desc.ctx d)) (x.env (Desc.stream d)).wide joins ((x.lodge (Desc.lodge d)).joinOk d) lodges (x.tagOk d)
/-- Streams with smoothing (1), two tiles (2), a 256-element rotation (3), a sign vector past the end (4), lodge mode (5), whose lodge 0 is another's. -/
def streamy : Part :=
  ({ p0 with ssu := { p0.ssu with streams :=
    [(1, { StreamEntry.reset with smoothEn := true }), (2, { StreamEntry.reset with rowT := 1, mode := 0 }), (3, { StreamEntry.reset with rotN := 5 }),
     (4, { StreamEntry.reset with rotN := 1, signEn := true, signBase := 16383, rowT := 1, mode := 2 }), (5, { StreamEntry.reset with mode := 1, rowT := 1 })] } } : Part).onLodge 0
    fun l => { l with phase := .opened, stream := 9 }
def desc (l : List (Nat × Nat)) : BitVec 128 := BitVec.ofNat 128 (bitsOf l)

/-- Each code of R155 that a descriptor can get, in the table's order (0x05 cannot come behind 0x02 and 0x03). -/
theorem test_wit_DescriptorIssue_codes :
    codeAt streamy 12 = 1 ∧ codeAt streamy (desc [(31, 5)]) = 2 ∧ codeAt streamy (desc [(1, 28)]) = 3 ∧ codeAt streamy (desc [(6, 0), (8, 5)]) = 4
      ∧ codeAt streamy (desc [(5, 0), (8, 5), (1, 12), (1, 65), (1, 66), (1, 67)]) = 6 ∧ codeAt streamy (desc [(1, 37)]) = 7
      ∧ codeAt streamy (desc [(4, 0), (8, 5), (2, 12)]) = 8 ∧ codeAt streamy (desc [(4, 0), (8, 5), (5, 12)]) = 9 ∧ codeAt streamy (desc [(4, 0), (8, 5), (3, 12)]) = 10
      ∧ codeAt streamy (desc [(4, 0), (8, 5), (4, 12)]) = 11 ∧ codeAt streamy (desc [(1, 0), (2, 5), (1, 28)]) = 12 ∧ codeAt streamy (desc [(1, 0), (2, 5)]) = 0 := by
  and_intros <;> decide

/-- A port with a free place, without one, fenced; a descriptor that passes, one that is rejected, one of a reserved chain, one with its event enabled. -/
theorem test_wit_DescriptorIssue :
    let ready (x : Part) : Prop := (x.dp 17).fenced = true ∨ (x.dp 17).exec = none ∨ ((x.dp 17).pend = none ∧ quadOf 17 ∈ x.pwr.awake)
    let code := codeAt
    let evented := desc [(12, 0), (1, 116)]
    let fenced := p0.onDp 17 fun d => { d with fenced := true }
    let full := p0.onDp 17 fun d => { d with exec := some jb, pend := some jb }
    p0.Calm ∧ p0.glob.fencedSelf = false ∧ ready p0 ∧ ready (withJob jb) ∧ full.Calm ∧ ¬ ready full ∧ fenced.Calm ∧ (fenced.dp 17).fenced = true ∧ Desc.evtEn dOk = false
      ∧ 12 ≤ Desc.chain 12 ∧ Desc.chain 11 < 12 ∧ (p0.dp 17).fenced = false ∧ code p0 12 ≠ 0 ∧ Desc.evtEn 12 = false ∧ ¬ p0.LodgeOver (Desc.lodge 12)
      ∧ code p0 dOk = 0 ∧ Desc.chain dOk = 0 ∧ Desc.pair dOk = false ∧ code (withJob jb) dOk = 0
      ∧ Desc.evtEn evented = true ∧ code p0 evented ≠ 0 ∧ (p0.seq (17 / 8)).wait = .none ∧ (p0.seq (17 / 8)).event (Desc.event evented) = (0, 0) := by
  try dsimp only
  and_intros <;> decide

/-- Streams of each mode: live (10), an empty and a filled Envelope (11, 12), a calibration entry that fails and one that serves (13, 14), a lodge
that fits (15), ones that do not, by LODGE_FB (16 to 18), a latched WIDE (19). -/
def modal : Part :=
  let e := StreamEntry.reset
  { p0 with ssu := { p0.ssu with
      streams := [(10, { e with mode := 0 }), (11, e), (12, e), (13, { e with mode := 3 }), (14, { e with mode := 3, calBase := 1 }), (15, { e with mode := 1, rowT := 1 }),
        (16, { e with mode := 1, rowT := 65, lodgeFb := 0 }), (17, { e with mode := 1, rowT := 65 }), (18, { e with mode := 1, rowT := 65, lodgeFb := 3 })]
      envs := [(12, { Env.reset with ring := [(0x3F80, 0)], eHi := 0x3F80, eLo := 0 }), (19, { Env.reset with wide := true })]
      cal := [(1, 0x88003F80#64)] } }
/-- Chain 4 to INT8 in stream `n`, 128 rows for the lodges that do not fit. -/
def dMode (n : Nat) : BitVec 128 := desc [(4, 0), (8, 5), (n, 12), (if 16 ≤ n ∧ n ≤ 18 then 127 else 3, 30)]

theorem test_wit_DescriptorIssue_modes :
    let v (n : Nat) := modal.env (Desc.stream (dMode n))
    let e (n : Nat) := modal.stream (Desc.stream (dMode n))
    let cal (n : Nat) := tabGet modal.ssu.cal (((e n).calBase.toNat + Desc.calidx (dMode n)) % 65536) 0
    let need (n : Nat) := Desc.rows (dMode n) * (((e n).tiles + 1) / 2)
    modal.Calm ∧ modal.glob.fencedSelf = false ∧ (modal.dp 17).exec = none ∧ (∀ n, n < 10 → codeAt modal (dMode (10 + n)) = 0)
      ∧ Fmt.ofCode (Desc.tfmt (dMode 10)) = some .int8 ∧ Fmt.int8.isLedger = true ∧ Desc.pair (dMode 10) = false ∧ ¬ modal.LodgeOver (Desc.lodge (dMode 15))
      ∧ modal.lodgePhase (Desc.lodge (dMode 15)) ≠ .opened ∧ modal.lodgePhase (Desc.lodge (dMode 15)) ≠ .opening ∧ modal.lodgePhase (Desc.lodge (dMode 15)) ≠ .lateWindow
      ∧ (v 19).wide = true ∧ (e 10).mode.toNat = 0 ∧ (v 10).wide = false
      ∧ (e 11).mode.toNat = 2 ∧ (v 11).ring = [] ∧ (e 12).mode.toNat = 2 ∧ (v 12).ring ≠ []
      ∧ (e 13).mode.toNat = 3 ∧ Cal.usable (cal 13) (e 13) = false ∧ (e 14).mode.toNat = 3 ∧ Cal.usable (cal 14) (e 14) = true ∧ Cal.fmt (cal 14) = Desc.tfmt (dMode 14)
      ∧ (e 15).mode.toNat = 1 ∧ 1 < (e 15).tiles ∧ need 15 ≤ 4096 ∧ Desc.dest (dMode 15) ≤ 1 ∧ (∀ n, n < 3 → 4096 < need (16 + n))
      ∧ (e 17).lodgeFb = 2 ∧ (e 18).lodgeFb = 3 ∧ (e 16).lodgeFb ≠ 2 ∧ (e 16).lodgeFb ≠ 3
      ∧ (let y := modal.onLodge 0 fun l => { l with phase := .opened, owner := 20, stream := 15, tiles := 2, rows := 4 }
         y.Calm ∧ y.lodgePhase (Desc.lodge (dMode 15)) = .opened ∧ Desc.asksLodge (dMode 15) (e 15) = true ∧ ¬ y.LodgeOver (Desc.lodge (dMode 15)) ∧ codeAt y (dMode 15) = 0) := by
  try dsimp only
  and_intros <;> decide

theorem test_wit_DescriptorStarts :
    let can (j : DrainJob) : Prop :=
      j.started = false ∧ j.lodgeWait = false ∧ (∀ t, j.pair ≠ .waiting t) ∧ ((withJob j).dp 17).fenced = false ∧ (withJob j).glob.fencedSelf = false
    let toGh : DrainJob := { jb with desc := BitVec.ofNat 128 (2 ^ 28) }
    ((withJob jb).dp 17).exec = some jb ∧ can jb ∧ ({ jb with started := true } : DrainJob).started = true ∧ Desc.dest jb.desc = 0
      ∧ can toGh ∧ Desc.dest toGh.desc ≠ 0 ∧ toGh.mode ≠ .lodge ∧ (∀ l, toGh.pair ≠ .partner l)
      ∧ can { toGh with mode := .forecast } ∧ can { toGh with mode := .lodge } ∧ can { toGh with pair := .partner 3 }
      ∧ (let c9 : DrainJob := { jb with desc := desc [(9, 0), (0x1C, 5), (2, 28), (1, 92)] }
         can c9 ∧ Desc.chain c9.desc = 9 ∧ Desc.dest c9.desc = 2) := by
  try dsimp only
  and_intros <;> first | decide | (intro _ h; cases h)

theorem test_wit_RowArrives :
    let j : DrainJob := { jb with started := true, desc := dOk }
    let x := withJob j
    let y := withJob lodgeJb
    let z (t : Nat) := tm t y |>.onLodge 4 fun l => { l with phase := .opened, owner := 17, job := some lodgeJb }
    x.Calm ∧ (List.replicate 128 (0 : W32)).length = 128 ∧ (x.dp 17).exec = some j ∧ (withJob jb).rowReady 17 jb = false ∧ x.rowReady 17 j = true
      ∧ Desc.chain j.desc = 0 ∧ Desc.tfmt j.desc = 0 ∧ Desc.dest j.desc = 0 ∧ Desc.stagewise j.desc = false ∧ Desc.addBias j.desc = false ∧ Desc.addRes j.desc = false
      ∧ j.mode = .plain ∧ j.pair = .single ∧ j.lodge = none ∧ jb.lodge = none ∧ j.row + 1 < Desc.rows j.desc ∧ j.outAddr (Desc.tile j.desc) j.row 512 % 65536 + 512 ≤ 65536
      ∧ j.outAddr (Desc.tile j.desc) j.row 512 % 64 = 0
      ∧ (x.noc 2).waiting = [] ∧ (x.noc 2).openReqs = [] ∧ (x.noc 2).merging = false ∧ 1 ≤ (x.noc 2).reqCr ∧ 1 ≤ (x.noc 2).wrCr
      ∧ y.Calm ∧ (y.dp 17).exec = some lodgeJb ∧ y.rowReady 17 lodgeJb = true ∧ lodgeJb.mode = .lodge ∧ lodgeJb.lodge = some 4 ∧ lodgeJb.row + 1 < Desc.rows lodgeJb.desc
      ∧ ¬ y.LodgeOver 4 ∧ (z 0).Calm ∧ (z 1000000).LodgeOver 4 ∧ ¬ (z 999999).LodgeOver 4 ∧ ((z 0).lodge 4).job.isSome = true ∧ ((z 0).dp 17).exec = some lodgeJb := by
  try dsimp only
  and_intros <;> decide

/-- A lodge in the phase given, of the port 17. -/
def withLodge (f : Lodge → Lodge) (t : Nat := 0) (p : Part := p0) : Part := tm t (awake p) |>.onLodge 4 fun _ => f { Lodge.reset with owner := 17 }

theorem test_wit_LodgeCloses :
    let l (pass : Nat) (late : Bool) : Lodge := { Lodge.reset with owner := 17, job := some jb, pass := pass, timedOut := late, req := some 3 }
    let x (pass : Nat) (late : Bool) : Part := let p := awake p0; { p with ssu := { p.ssu with closing := [(4, l pass late)] } }
    let ready (x : Part) (l : Lodge) (j : DrainJob) : Prop := l.pass = 2 ∧ j.opndDue = [] ∧ x.grantedOpt j.outBuf = true ∧ quadOf l.owner ∈ x.pwr.awake ∧ x.glob.fencedSelf = false
    p0.Calm ∧ p0.closeOf 4 = none
      ∧ (x 2 false).Calm ∧ (x 2 false).closeOf 4 = some (l 2 false, jb) ∧ ready (x 2 false) (l 2 false) jb ∧ (l 2 false).timedOut = false ∧ (l 2 false).req = some 3
      ∧ (x 2 true).Calm ∧ (x 2 true).closeOf 4 = some (l 2 true, jb) ∧ ready (x 2 true) (l 2 true) jb ∧ (l 2 true).timedOut = true
      ∧ (x 1 false).closeOf 4 = some (l 1 false, jb) ∧ ¬ ready (x 1 false) (l 1 false) jb := by
  try dsimp only
  and_intros <;> decide

/-- Each window at its last nanosecond and at its end. -/
theorem test_wit_LodgeAndPairWindows :
    let o (t : Nat) := withLodge (fun l => { l with phase := .opened, job := some jb }) t
    let w (t : Nat) := withLodge (fun l => { l with phase := .lateWindow }) t
    let g := withLodge fun l => { l with phase := .opening, req := some 3 }
    let ended (x : Part) : Prop := (x.lodge 4).since + x.ssu.tmo.toNat ≤ x.now
    let pj : DrainJob := { jb with pair := .waiting 5 }
    let q (t : Nat) := tm t (withJob pj)
    ((o 1000000).Calm ∧ ((o 1000000).lodge 4).phase = .opened ∧ ended (o 1000000) ∧ ((o 1000000).lodge 4).job.isSome = true ∧ ¬ ended (o 999999))
      ∧ ((w 1000000).Calm ∧ ((w 1000000).lodge 4).phase = .lateWindow ∧ ended (w 1000000) ∧ ¬ ended (w 999999) ∧ ((w 0).lodge 4).phase ≠ .opened)
      ∧ (g.Calm ∧ (g.lodge 4).phase = .opening ∧ (g.lodge 4).req = some 3 ∧ tabFind g.larder.bufs 3 = none ∧ ((w 0).lodge 4).phase ≠ .opening)
      ∧ ((q 0).Calm ∧ ((q 0).dp 17).exec = some pj ∧ ((q 0).dp 17).pend = none ∧ pj.pair = .waiting 5 ∧ (q 1004).now < 5 + 1000 ∧ 5 + 1000 ≤ (q 1005).now
        ∧ pj.src = none ∧ Desc.evtEn pj.desc = false) := by
  try dsimp only
  and_intros <;> decide

theorem test_wit_Fencing :
    let f := p0.onDp 17 fun d => { d with fenced := true }
    let c := p0.onDp 17 fun d => { d with coreFault := true }
    p0.Calm ∧ p0.shut = false ∧ (p0.dp 17).coreFault = false ∧ (p0.dp 17).fenced = false ∧ f.Calm ∧ f.shut = false ∧ (f.dp 17).fenced = true
      ∧ c.Calm ∧ c.shut = false ∧ (c.dp 17).coreFault = true
      ∧ (let j : DrainJob := { lodgeJb with pair := .waiting 5 }
         let x := tm 1004 (withJob j) |>.onLodge 4 fun l => { l with phase := .opened, owner := 17, job := some j }
         x.Calm ∧ (x.dp 17).fenced = false ∧ (∀ k, j.lodge = some k → k = 4) ∧ ¬ x.LodgeOver 4 ∧ j.pair = .waiting 5 ∧ x.now < 5 + 1000) := by
  try dsimp only
  and_intros <;> decide

/-- A row that is not the last, and the last. -/
theorem test_wit_OperandRows :
    let o (n : Nat) : OpsTile := { tag := 1, tidx := 2, rows := [[1], [2]], next := n, buf := none }
    let x (n : Nat) := (awake p0).onDp 17 fun d => { d with ops := [o n] }
    ((x 0).dp 17).ops = o 0 :: [] ∧ quadOf 17 ∈ (x 0).pwr.awake ∧ (o 0).next + 1 < (o 0).rows.length ∧ (o 1).rows.length ≤ (o 1).next + 1 ∧ (o 1).buf = none
      ∧ ({ o 1 with buf := some 5 } : OpsTile).buf = some 5 ∧ (x 0).glob.fencedSelf = false
      ∧ quadOf 17 ∉ (p0.onDp 17 fun d => { d with ops := [o 0] }).pwr.awake := by
  try dsimp only
  and_intros <;> decide

/-! NoC and Larder -/

/-- A FETCH MEM of sequencer 2 outstanding under tag 5, and a read of two lines under tag 6. -/
def fetching : Part :=
  (p0.onSeq 2 fun x => { x with st := 2, wait := .fetch 3 }).onNoc 2 fun n =>
    { n with openReqs := [(5, (⟨false, 64, 64, [], .fetch 2 56, []⟩, 64)), (6, (⟨false, 128, 128, [], .spool 2, []⟩, 128))] }
/-- A PUT WORD outstanding under tag 5, and the last write of a descriptor under tag 6. -/
def storing : Part :=
  (p0.onDp 17 fun d => { d with tail := [{ jb with nocDue := 1 }] }).onNoc 2 fun n =>
    { n with openReqs := [(5, (⟨true, 64, 8, [], .store 2, []⟩, 0)), (6, (⟨true, 128, 64, [], .drainOut 17 jb.id, []⟩, 0))] }

theorem test_wit_NocTraffic :
    (fetching.Calm ∧ tabFind (fetching.noc 2).openReqs (7#8).toNat = none
        ∧ tabFind (fetching.noc 2).openReqs (6#8).toNat = some (⟨false, 128, 128, [], .spool 2, []⟩, 128)
        ∧ ([] : List Byte).length + (List.replicate 64 (0 : Byte)).length < 128
        ∧ tabFind (fetching.noc 2).openReqs (5#8).toNat = some (⟨false, 64, 64, [], .fetch 2 56, []⟩, 64) ∧ (fetching.noc 2).waiting = []
        ∧ (List.replicate 64 (0 : Byte)).length = 64 ∧ (fetching.seq 2).wait = .fetch 3)
      ∧ (storing.Calm ∧ storing.NoFence ∧ tabFind (storing.noc 2).openReqs (7#8).toNat = none
        ∧ tabFind (storing.noc 2).openReqs (5#8).toNat = some (⟨true, 64, 8, [], .store 2, []⟩, 0) ∧ (storing.noc 2).waiting = []
        ∧ tabFind (storing.noc 2).openReqs (6#8).toNat = some (⟨true, 128, 64, [], .drainOut 17 ({ jb with nocDue := 1 } : DrainJob).id, []⟩, 0)
        ∧ (storing.dp 17).exec = none ∧ (storing.dp 17).pend = none ∧ (storing.dp 17).tail = [{ jb with nocDue := 1 }]
        ∧ ({ jb with nocDue := 1 } : DrainJob).nocDue = 1 ∧ jb.src = none ∧ Desc.evtEn jb.desc = false)
      ∧ (let r : NocReq := ⟨false, 65536 - 64, 64, [], .spool 2, []⟩
         let x := p0.onNoc 2 fun n => { n with reqCr := 0, waiting := [r] }
         x.Calm ∧ x.NoFence ∧ (x.noc 2).waiting = [r] ∧ r.wr = false ∧ r.data = [] ∧ r.off % 65536 + r.len ≤ 65536 ∧ (x.noc 2).reqCr = 0 ∧ (x.noc 2).openReqs = []
           ∧ (x.noc 2).merging = false)
      ∧ (let r : NocReq := ⟨false, 72 / 64 * 64, 64, [], .merge 72 (List.replicate 8 1) (.store 2), []⟩
         let x := p0.onNoc 2 fun n => { n with merging := true, openReqs := [(5, (r, 64))] }
         x.Calm ∧ tabFind (x.noc 2).openReqs (5#8).toNat = some (r, 64) ∧ (x.noc 2).waiting = [] ∧ (x.noc 2).openReqs = [((5#8).toNat, (r, 64))]
           ∧ (List.replicate 64 (0 : Byte)).length = 64 ∧ (List.replicate 8 (1 : Byte)).length = 8 ∧ 72 % 8 = 0 ∧ 1 ≤ (x.noc 2).reqCr ∧ 1 ≤ (x.noc 2).wrCr) := by
  try dsimp only
  and_intros <;> decide

/-- Requests at both ends of 1 to 4,096; a request at, and one beyond, its floor and its ceiling. -/
theorem test_wit_LarderQueue :
    let r (c : Nat) : LReq := { id := 3, requester := 0, consumer := 64, part := 1, credits := c, starved := false, made := 0 }
    let x (occ c : Nat) := p0.onLarder fun l => { l with occ := l.occ.set 1 occ, queue := [r c] }
    let l (occ c : Nat) := (x occ c).larder
    let allowed (occ c : Nat) : Prop :=
      occ + c ≤ (l occ c).active.floors.getD 1 0
        ∨ (occ + c ≤ (l occ c).active.ceils.getD 1 0 ∧ (occ + c - (l occ c).active.floors.getD 1 0) - (occ - (l occ c).active.floors.getD 1 0) ≤ (l occ c).poolFree)
    let guarded (occ c : Nat) : Prop := (r c).starved = false ∧ (l occ c).active.floors.getD 1 0 < occ + c ∧ occ + c ≤ (l occ c).active.ceils.getD 1 0
    (l 0 8).queue.find? (fun r => decide (r.part = (1 : Fin 16).val)) = some (r 8) ∧ guarded (0x3FC0 - 8) 8 ∧ ¬ guarded (0x3FC0 - 8) 9 ∧ ¬ guarded (0x2000 - 8) 8
      ∧ (x (0x2000 - 8) 8).Calm ∧ (l 0 8).queue = [r 8] ∧ (r 8).part < 16 ∧ (l 0 8).occ.length = 16 ∧ allowed (0x2000 - 8) 8 ∧ allowed (0x3FC0 - 8) 8 ∧ ¬ allowed (0x3FC0 - 8) 9
      ∧ (x 0 8).ssu.lodges = [] ∧ (x 0 8).gh.landings = [] ∧ (x 0 8).gh.lgs = [] ∧ (x 0 8).ctxs = [] ∧ (x 0 8).twinCtxs = [] ∧ (∀ q < 9, ((x 0 8).seq q).loading = none) := by
  try dsimp only
  and_intros <;> decide

/-! Links and messages -/

/-- An identity that this part does not answer for. -/
theorem answers_far (p : Part) (d : FabId) (h1 : p.gh.package = 0) (h2 : p.gh.side = false) (h3 : p.gh.twinValid = false) (h4 : 4 ≤ d.toNat) :
    p.answers d = false := by
  have hd : Config.die.toNat < 4 := Config.die.isLt
  have : d ≠ p.ownId := by
    intro h
    rw [h] at h4
    simp [Part.ownId, h1, h2, b2n] at h4
    omega
  simp [Part.answers, this, h3]

theorem answers_own (p : Part) : p.answers p.ownId = true := by simp [Part.answers]

def flit0 : Flit := { ftype := .control, vl := 1, eom := true, dst := 8, src := 0, repoch := 0, msgid := 1, fidx := 0, payload := [] }
/-- Lane group 1 as given. -/
def lane (f : LaneGroup → LaneGroup) (p : Part := p0) : Part := p.onLg 1 f
/-- A link in service. -/
def up (l : LaneGroup) : LaneGroup := { l with active := true, initRx := true, credits := [8, 8, 8, 8, 8, 8] }

theorem test_wit_TransmitCredits :
    (p0.lg 1).Empty
      ∧ (let x := lane fun l => { up l with queues := [[], [flit0], [], [], [], []] }
         (x.lg 1).active = true ∧ (x.lg 1).initRx = true ∧ (x.lg 1).down = false ∧ x.glob.fencedSelf = false ∧ (x.lg 1).linkq = [] ∧ (x.lg 1).again = []
           ∧ (x.lg 1).pcsCr = 0 ∧ (x.lg 1).replay.length < 128 ∧ (x.lg 1).nextVl = some 1 ∧ (x.lg 1).queues.getD 1 [] = flit0 :: []) := by
  try dsimp only
  and_intros <;> decide

/-- A flit out of order, one in order (a CONTROL flit that opens a message), and a link that sleeps. -/
theorem test_wit_FlitsInOrder :
    let h (lseq : Nat) : BitVec 128 := BitVec.ofNat 128 (11 + 1 * 2 ^ 4 + lseq * 2 ^ 8)
    let x := lane up
    x.Calm ∧ (x.lg 1).active = true ∧ x.glob.fencedSelf = false ∧ (x.lg 1).pcsCr = 0 ∧ (p0.lg 1).active = false ∧ p0.Calm
      ∧ Fh.ftype (h 1) ≠ 0 ∧ Fh.lseq (h 1) ≠ (x.lg 1).rxSeq ∧ Fh.ftype (h 0) ≠ 0 ∧ Fh.lseq (h 0) = (x.lg 1).rxSeq
      ∧ FType.ofCode (Fh.ftype (h 0)) = some .control ∧ FType.control.long = true ∧ FType.control.vlOk (Fh.vl (h 0)) = true ∧ Fh.reservedSet (h 0) = false
      ∧ Fh.fidx (h 0) = 0 ∧ ctlMalformed (controlBody 0x14 3 0 1 2 0 []) = false ∧ (∀ m < 8, m ≠ 1 → Fh.src (h 0) ∉ (x.lg m).honoured) ∧ x.findAsm 1 (Fh.src (h 0)) (Fh.msgid (h 0)) = none := by
  try dsimp only
  and_intros <;> decide

/-- A first flit for an identity answered for, whatever the die number. -/
theorem test_wit_FlitsInOrder_dst :
    ∃ h : BitVec 128, Fh.ftype h = 11 ∧ Fh.vl h = 1 ∧ Fh.lseq h = 0 ∧ Fh.fidx h = 0 ∧ Fh.reservedSet h = false ∧ (lane up).answers (Fh.dst h) = true := by
  have hd : Config.die.toNat < 4 := Config.die.isLt
  have e : (lane up).ownId = BitVec.ofNat 17 Config.die.toNat := by simp [Part.ownId, lane, Part.onLg, Part.onGh, p0, Part.reset, Gh.reset, b2n]
  refine ⟨BitVec.ofNat 128 (11 + 1 * 2 ^ 4 + Config.die.toNat * 2 ^ 44), ?_⟩
  rw [Part.answers, e]
  generalize Config.die.toNat = d at hd
  have : d = 0 ∨ d = 1 ∨ d = 2 ∨ d = 3 := by omega
  rcases this with rfl | rfl | rfl | rfl <;> decide

theorem test_wit_LinkStates :
    p0.Calm ∧ p0.glob.fencedSelf = false ∧ p0.twin.st ≠ 2#3 ∧ ((lane fun l => { l with lpReq := true }).lg 1).lpReq = true ∧ (lane fun l => { l with lpReq := true }).Calm
      ∧ (p0.lg 1).lpReq = false ∧ p0.courier.en = false
      ∧ (let c : Part := { p0 with courier := { p0.courier with en := true } }; c.Calm ∧ c.courier.en = true ∧ (c.lg 0).lanes = 0#4) := by
  and_intros <;> decide

/-- The seventh and the eighth resend, the window's last nanosecond and its end, a number beyond the store. -/
theorem test_wit_Resends :
    let x (k t : Nat) := tm t (lane fun l => { l with replay := [(5, flit0)], resends := k })
    let qs (a : BitVec 12) := (((x 0 0).lg 1).replay.map Prod.fst).filter fun b => decide ((b - a).toNat < 2048)
    (x 6 2000).Calm ∧ (x 6 2000).groups = [] ∧ (x 6 2000).glob.fencedSelf = false ∧ qs 6 = [] ∧ qs 5 ≠ [] ∧ ((x 6 0).lg 1).Stuck ∧ ((x 6 0).lg 1).resends < 7 ∧ ((x 7 0).lg 1).resends = 7
      ∧ (p0.lg 1).replay = [] ∧ (x 6 1999).now < ((x 6 1999).lg 1).lackTime + 2000 ∧ ((x 6 2000).lg 1).lackTime + 2000 ≤ (x 6 2000).now
      ∧ ((x 6 0).lg 1).replay = (5, flit0) :: [] := by
  try dsimp only
  and_intros <;> decide

/-- An identity claimed on another link, and one that is not; each timer at its last nanosecond and at its end, with and without credits owed. -/
theorem test_wit_LinkFlits :
    let c := p0.onLg 2 fun l => { l with honoured := [8] }
    let x (t : Nat) (o : List Nat) := tm t (lane fun l => { up l with owed := o })
    let idle (x : Part) : Prop := (x.lg 1).active = true ∧ (x.lg 1).initRx = true ∧ (x.lg 1).lastSent + 1000 ≤ x.now
    let d (t : Nat) := tm t (lane (fun l => { l with down := true }) { p0 with mb := { p0.mb with keeperUp := 1 } })
    let retry (x : Part) : Prop := (x.lg 1).down = true ∧ bitOf x.mb.keeperUp 0 = true ∧ bitOf x.mb.halted 0 = false ∧ (x.lg 1).retryAt + 1000000 ≤ x.now
    p0.glob.fencedSelf = false ∧ ({ p0 with glob := { p0.glob with fencedSelf := true } } : Part).glob.fencedSelf = true ∧ c.glob.fencedSelf = false
      ∧ p0.Calm ∧ (p0.lg 1).Empty ∧ (List.replicate 6 (4 : W16)).length = 6 ∧ p0.pwr.bootStep ≠ 9 ∧ (p0.lg 1).credits.length = 6
      ∧ p0.claimedElsewhere 1 8 = false ∧ c.claimedElsewhere 1 8 = true ∧ (c.lg 1).Stuck
      ∧ ¬ idle (x 999 []) ∧ idle (x 1000 []) ∧ ((x 1000 []).lg 1).pcsCr = 0 ∧ sumN ((x 1000 []).lg 1).owed = 0 ∧ sumN ((x 1000 [0, 2]).lg 1).owed ≠ 0
      ∧ ¬ retry (d 999999) ∧ retry (d 1000000) := by
  try dsimp only
  and_intros <;> decide

/-- An identity heard 3,999 ns ago and 4,000 ns ago; the twin claimed inside its window and at its end, with and without another lane group pending. -/
theorem test_wit_Claims :
    let x (t : Nat) := tm t (lane fun l => { l with heard := [(8, 0)] })
    let heard (x : Part) : Prop := ∃ m < 8, (match tabFind (x.lg m).heard (8#17).toNat with | some t0 => decide (x.now < t0 + 4000) | none => false) = true
    let c (t : Nat) (two : Bool) : Part :=
      let y := tm t { p0 with twin := { p0.twin with st := 2 } }
      if two then y.onLg 2 up else y
    let inTime (x : Part) : Prop := x.now < x.twin.winAt + x.twin.claimTmo.toNat
    let pending (x : Part) (m : Nat) : Prop := (x.lg m).active = true ∧ (x.lg m).down = false ∧ (x.lg m).claimAck = false
    (x 3999).Calm ∧ (x 3999).groups = [] ∧ (x 3999).glob.fencedSelf = false ∧ (c 0 true).glob.fencedSelf = false ∧ ((x 0).lg 1).Stuck ∧ heard (x 3999) ∧ ¬ heard (x 4000)
      ∧ (c 0 true).Calm ∧ (c 0 true).groups = [] ∧ (c 0 true).twin.st = 2#3 ∧ inTime (c 3999 true) ∧ ¬ inTime (c 4000 true)
      ∧ (∃ m < 8, m ≠ 1 ∧ pending (c 0 true) m) ∧ (∀ m < 8, m ≠ 1 → ¬ pending (c 0 false) m) ∧ (∀ m < 8, ¬ pending (c 4000 false) m) ∧ (c 0 false).twin.mirror = .reset ∧ p0.twin.st ≠ 2#3
      ∧ (c 0 true).twinId = (c 0 false).twinId ∧ p0.ownId = (c 0 false).ownId := by
  try dsimp only
  and_intros <;> first | decide | rfl

/-- An export window of the identity addressed, by that identity. -/
theorem windowOk_own (p : Part) (wr : Bool) (lo hi : Nat) :
    p.windowOk p.ownId wr lo hi = (List.range 16).any fun i =>
      let w := tabGet p.gh.wins (0 + i) .reset
      bitOf w.base 0 && (if wr then bitOf w.base 2 else bitOf w.base 1) && decide (fld w.base 6 41 * 64 ≤ lo) && decide (hi ≤ fld w.limit 6 41 * 64) := by
  simp [Part.windowOk]

/-- One row of 128 BF16 elements with its record, landing as LFMT `lf` at 0x1000, pitch one line, port 1. -/
def hdOf (vreq lf : Nat) : BitVec 256 := BitVec.ofNat 256 (bitsOf [(2, 0), (lf, 5), (vreq, 22), (264, 32), (0x1000, 64), (1, 184)])
def body0 : List Byte := List.replicate 264 0
def m0 : RxMsg := ⟨1, 8, p0.ownId, 1, hdOf 0 2, body0⟩
/-- A request for three rows of FP32 at 0x1000. -/
def gq (off : Nat) (stream : Nat := 0) : BitVec 256 := BitVec.ofNat 256 (bitsOf [(2, 5), (stream, 10), (2, 24), (off, 64), (1, 160)])
/-- Export window 0 of 0 to 1 MiB, both ways; the Gatehouse's NoC ports without credits. -/
def win (p : Part) : Part :=
  ({ p with gh := { p.gh with wins := [(0, ⟨0x7, 0x100000⟩)] } }.onNoc 9 fun n => { n with reqCr := 0 }).onNoc 8 fun n => { n with reqCr := 0 }
def om : OutMsg :=
  { ftype := .send, dst := 8, lg := 1, vl := 3, xfer := 2, expectsAck := true, acceptedAt := some 0, buf := none, keepBuf := none, hdr := 0, keep := [], clips := 3,
    misfit := false, verdict := .awaited, chunk := none }
def xf : Xfer := { kind := .send, blk := BitVec.ofNat 512 (bitsOf [(7, 44), (1, 52)]), se := .reset, seq := 3, expected := 2, done := 0, signs := [], nextTile := 0, status := 0 }
def asm : RxAsm :=
  { src := 8, msgid := 1, ftype := .send, vl := 3, dst := 0, repoch := 0, nextFidx := 1, complete := false, first := 0, last := 0, fate := .accepted, hdr := 0, bytes := [], buf := none }
def ld : Landing :=
  { id := 1, src := 8, dst := p0.ownId, lg := 1, msgid := 1, ftype := .send, hdr := hdOf 1 2, body := body0, buf := none, waitBuf := false, waitVerdict := true,
    waitResend := false, since := 0, nocDue := 0, nocErr := false, started := false }
def hm : HeldMsg :=
  { lg := 1, src := 8, msgid := 1, since := 0, repoch := 1, dst := 0, msg := none, chunk := none, verdict := none, resend := none, xfer := 0, hdr := 0 }
def gx (f : Gh → Gh) (t : Nat := 0) : Part := tm t (p0.onGh f)

/-- The windows of R206, R212 and R218 at their last nanosecond and at their end. -/
theorem test_wit_MessageWindows :
    let a (t : Nat) := gx (fun g => { g with lgs := [(1, { LaneGroup.reset with asms := [asm] })] }) t
    let l (t : Nat) := gx (fun g => { g with landings := [ld] }) t
    let o (t : Nat) (m : OutMsg) := gx (fun g => { g with outMsgs := [(1, m)], xfers := [(2, xf)] }) t
    let h (t : Nat) := gx (fun g => { g with helds := [hm] }) t
    let late (x : Part) (m : OutMsg) : Prop := m.expectsAck = true ∧ ∃ t0, m.acceptedAt = some t0 ∧ t0 + x.gh.ackTmo.toNat ≤ x.now
    p0.Still ∧ p0.gh.xfers = [] ∧ p0.gh.lgs = [] ∧ p0.gh.landings = []
      ∧ ((a 0).Still ∧ (a 0).gh.xfers = [] ∧ (a 0).gh.landings = [] ∧ (a 0).findAsm 1 8 1 = some asm ∧ (∀ m < 8, m ≠ 1 → (a 0).findAsm m 8 1 = none)
        ∧ asm.complete = false ∧ asm.fate = .accepted ∧ asm.buf = none ∧ ({ asm with buf := some 3 } : RxAsm).buf = some 3
        ∧ asm.last + (a 0).gh.msgTmo.toNat ≤ (a 10000).now ∧ (a 9999).now < asm.last + (a 0).gh.msgTmo.toNat)
      ∧ ((l 0).Still ∧ (l 0).gh.xfers = [] ∧ (l 0).gh.lgs = [] ∧ (l 0).gh.landings = [ld] ∧ ld.src = 8 ∧ ld.msgid = 1 ∧ (ld.waitVerdict = true ∨ ld.waitResend = true)
        ∧ ld.buf = none ∧ ld.since + (l 0).gh.msgTmo.toNat ≤ (l 10000).now ∧ (l 9999).now < ld.since + (l 0).gh.msgTmo.toNat)
      ∧ ((o 0 om).Still ∧ (o 0 om).NoFence ∧ tabFind (o 0 om).gh.outMsgs (1#16).toNat = some om ∧ (o 0 om).gh.xfers = [(om.xfer.toNat, xf)] ∧ xf.status = 0
        ∧ (om.ftype = .send ∨ om.ftype = .put) ∧ late (o 100000 om) om ∧ om.buf = none ∧ om.ftype ≠ .tether ∧ Xb.evtEn xf.blk = true
        ∧ ((o 0 om).seq xf.seq).wait = .none ∧ ((o 0 om).seq xf.seq).event (Xb.event xf.blk) = (0, 0))
      ∧ tabFind (o 0 { om with buf := some 3 }).gh.outMsgs (1#16).toNat = some { om with buf := some 3 }
      ∧ (let w : HeldMsg := { hm with msg := some (.send, { m0 with hdr := hdOf 1 2 }) }
         let x (t : Nat) := gx (fun g => { g with helds := [w] }) t
         (x 0).Still ∧ (x 0).gh.xfers = [] ∧ (x 0).gh.lgs = [] ∧ (x 0).gh.landings = [] ∧ (x 0).gh.helds = [w] ∧ w.awaits = true ∧ w.last + (x 0).gh.msgTmo.toNat ≤ (x 10000).now
           ∧ (x 0).findHeld 8 1 = some w ∧ (x 9999).now < w.last + (x 0).gh.msgTmo.toNat ∧ hm.awaits = false)
      ∧ ((h 0).Still ∧ (h 0).findHeld 8 1 = some hm ∧ (h 999999).now < hm.since + 1000000 ∧ hm.since + 1000000 ≤ (h 1000000).now) := by
  try dsimp only
  and_intros <;> first | decide | rfl

/-- Before the window's end no message is late. -/
theorem test_wit_MessageWindows_early : ¬ (om.expectsAck = true ∧ ∃ t0, om.acceptedAt = some t0 ∧ t0 + (gx id 99999).gh.ackTmo.toNat ≤ (gx id 99999).now) := by
  rintro ⟨-, t0, h, h'⟩
  cases h
  revert h'
  decide

/-- A message inside its window, one with a header that R201 forbids, one for another instance, one quarantined. -/
theorem test_wit_MessagesLand :
    let x := win p0
    let l0 (x : Part) (m : RxMsg) : Landing :=
      { id := x.nextId, src := m.src, dst := m.dst, lg := m.lg.val, msgid := m.msgid, ftype := .send, hdr := m.hdr, body := m.body, buf := none, waitBuf := false,
        waitVerdict := false, waitResend := false, since := x.now, nocDue := 0, nocErr := false, started := false }
    let ws := x.landWrites false (l0 x m0)
    let q := gx fun g => { g with lgs := [(1, { LaneGroup.reset with asms := [{ asm with fate := .quarantined }] })] }
    let whole (x : Part) : Prop := ∀ g < 8, ∀ v < 6, (x.lg g).withheld.getD v 0 = 0 ∨ x.vlWaits g v = true
    whole x ∧ whole q ∧ x.Calm ∧ m0.dst = x.ownId ∧ x.findAsm m0.lg.val m0.src m0.msgid = none ∧ hdrOk false m0.hdr m0.body = true ∧ Mh.vreq m0.hdr = false ∧ x.gh.landings = [] ∧ x.needsHalf (l0 x m0) false = false
      ∧ (x.noc 9).reqCr = 0 ∧ x.windowOk x.ownId true (extentLo ws.1) (extentHi ws.1) = true
      ∧ hdrOk false (hdOf 0 3) body0 = false ∧ hdrOk false (hdOf 0 2) (body0.drop 1) = false ∧ x.route 8 0xFF = none ∧ x.answers 8 = false
      ∧ q.Calm ∧ q.answers q.ownId = true ∧ q.findAsm m0.lg.val m0.src m0.msgid = some { asm with fate := .quarantined } := by
  try dsimp only
  and_intros <;> first | decide | rfl | exact answers_far _ _ rfl rfl rfl (by decide) | exact answers_own _ | (rw [windowOk_own]; decide)

/-- A tile of a pair whose blocks run over 256 elements, to be widened here: it waits for the other. -/
def paired : Part := { win p0 with ssu := { p0.ssu with streams := [(5, { StreamEntry.reset with rotN := 5, rowT := 1 })] } }
def mHalf : RxMsg :=
  ⟨1, 8, paired.ownId, 1, BitVec.ofNat 256 (bitsOf [(8, 0), (2, 5), (5, 10), (136, 32), (0x1000, 64), (4, 160)]),
    toBytes 8 (baseRec 0 true false false false).word.toNat ++ List.replicate 128 1⟩
def lHalf : Landing :=
  { id := paired.nextId, src := mHalf.src, dst := mHalf.dst, lg := mHalf.lg.val, msgid := mHalf.msgid, ftype := .send, hdr := mHalf.hdr, body := mHalf.body,
    buf := none, waitBuf := false, waitVerdict := false, waitResend := false, since := paired.now, nocDue := 0, nocErr := false, started := false }
theorem test_wit_MessagesLand_half :
    paired.Calm ∧ paired.findAsm mHalf.lg.val mHalf.src mHalf.msgid = none ∧ hdrOk false mHalf.hdr mHalf.body = true ∧ Mh.vreq mHalf.hdr = false
      ∧ paired.gh.landings = [] ∧ paired.needsHalf lHalf false = true := by
  refine ⟨by decide, by decide, by decide, by decide, by decide, ?_⟩
  have h1 : landsNarrow lHalf.hdr (msgUnits lHalf.hdr lHalf.body) = false := by decide
  have h2 : ((msgUnits lHalf.hdr lHalf.body).any fun u => u.led.rotated && !mismatch (paired.inSet .send lHalf.hdr).1 (unitIn (paired.inSet .send lHalf.hdr).1 lHalf.hdr u).1.led)
      = true := by decide
  have h3 : (paired.inSet .send lHalf.hdr).1.rotBlock = 256 ∧ Mh.unitElems lHalf.hdr = 128 := by decide
  have h4 : paired.windowOk paired.ownId true (extentLo (paired.landWrites false lHalf).1) (extentHi (paired.landWrites false lHalf).1) = true := by
    rw [windowOk_own]; decide
  have h5 : paired.landRefusal lHalf (paired.landWrites false lHalf).1 = none := by
    simp [Part.landRefusal, show lHalf.dst = paired.ownId from rfl, h4]
  simp only [Part.needsHalf, Part.arrives, show lHalf.ftype = .send from rfl, h1, h2, h3, h5]
  rfl

/-- Nothing granted: every buffer granted has a number below the next. -/
theorem test_wit_MessagesLand_granted (b : Nat) (h : (win p0).granted b = true) : b < (win p0).nextId := by
  have : (win p0).granted b = false := by simp [Part.granted, win, Part.onNoc, p0, Part.reset, Larder.reset, tabFind]
  simp_all

/-- A fenced and an unfenced port; a message that asks for a verdict; a request inside the window up to its last byte, and one byte line beyond. -/
theorem test_wit_MessagesStart :
    let x := win p0
    let f := (win p0).onDp 1 fun d => { d with fenced := true }
    let off := 0x100000 - 512 - 128
    let b32 : List Byte := List.replicate 32 0
    let reqOk (h : BitVec 256) : Prop := (fld h 0 5 = 0 ∨ fld h 0 5 = 2) ∧ b32.length = 32 ∧ Gq.reservedSet h = false
      ∧ Fmt.ofCode (fld h 5 5) = some .bf16 ∧ Fmt.bf16.isMx = false ∧ Fmt.bf16.isRun = false ∧ Fmt.bf16 ≠ .fp16
    let served (x : Part) (h : BitVec 256) : Prop := let e := x.stream (Gq.stream h)
      (Fmt.bf16.isLedger && decide (e.rotBlock = 256)) = false ∧ e.smoothEn = false ∧ mapBad e .bf16 = false ∧ (Fmt.bf16.isLedger = true → signsPast e (Mh.ctile (BitVec.ofNat 256 (ofBytes b32)) + 1) = false)
    let smooth : Part := { x with ssu := { x.ssu with streams := [(5, { StreamEntry.reset with smoothEn := true })] } }
    let hi (h : BitVec 256) : Nat := fld h 64 47 + (fld h 24 7 + 1 - 1) * (fld h 160 24 * 64) + 128 * 4
    x.Calm ∧ m0.dst = x.ownId ∧ x.findAsm 1 8 1 = none ∧ x.answers 8 = false ∧ x.route 8 0xFF = none
      ∧ hdrOk false m0.hdr m0.body = true ∧ Mh.lfmt m0.hdr = 2 ∧ Mh.vreq m0.hdr = false ∧ Mh.dpn m0.hdr = 1 ∧ (x.dp 1).fenced = false ∧ x.gh.landings = []
      ∧ f.Calm ∧ (f.dp 1).fenced = true ∧ hdrOk false (hdOf 1 2) body0 = true ∧ Mh.vreq (hdOf 1 2) = true
      ∧ (∀ l ∈ x.gh.landings, l.id ≠ x.nextId) ∧ x.granted (x.nextId + 1) = false
      ∧ reqOk (gq off 5) ∧ served x (gq off 5) ∧ ¬ served smooth (gq off 5)
      ∧ reqOk (gq off) ∧ served x (gq off) ∧ (x.noc 8).reqCr = 0 ∧ x.windowOk x.ownId false off (hi (gq off)) = true ∧ ¬ x.windowOk x.ownId false (off + 64) (hi (gq (off + 64))) = true := by
  try dsimp only
  and_intros <;> first | decide | rfl | exact answers_far _ _ rfl rfl rfl (by decide) | (rw [windowOk_own]; decide)

theorem test_wit_Verdicts :
    let h := gx fun g => { g with helds := [hm] }
    let x (l : Landing) (t : Nat) := win (gx (fun g => { g with landings := [l] }) t)
    let r : Landing := { ld with waitVerdict := false, waitResend := true, hdr := hdOf 1 8 }
    let ws := (x r 0).landWrites true { r with hdr := hdOf 1 8, body := body0 }
    let w : HeldMsg := { hm with msg := some (.send, { m0 with hdr := hdOf 1 2 }) }
    let hw (t : Nat) := gx (fun g => { g with helds := [w] }) t
    let o := gx fun g => { g with outMsgs := [(1, om)] }
    let f : Flit := { flit0 with src := p0.ownId, vnext := true }
    let last (f : Flit) : Prop := f.vnext = true ∧ f.src = p0.ownId ∧ f.msgid = 1
    let oq := o.onLg 1 fun l => { l with queues := l.queues.set 3 [flit0, f, flit0] }
    let oh := o.onLg 1 fun l => { l with hold := l.hold.set 3 (some (p0.ownId, 1)) }
    (h.Calm ∧ h.findHeld 8 1 = some hm ∧ hm.awaits = false) ∧
    ((hw 0).Calm ∧ (hw 0).findHeld 8 1 = some w ∧ w.awaits = true ∧ (hw 9999).now < w.last + (hw 0).gh.msgTmo.toNat ∧ (hw 0).gh.helds = [w]
      ∧ w.last + (hw 0).gh.msgTmo.toNat ≤ (hw 10000).now ∧ (hw 0).findLanding 8 1 = none) ∧ (p0.Calm ∧ p0.findHeld 8 1 = none ∧ p0.findLanding 8 1 = none)
      ∧ ((x ld 0).Calm ∧ (x ld 0).findHeld 8 1 = none ∧ (x ld 0).gh.landings = [ld] ∧ ld.src = 8 ∧ ld.msgid = 1 ∧ ld.buf = none ∧ ld.waitVerdict = true
        ∧ (x ld 9999).now < ld.since + (x ld 0).gh.msgTmo.toNat ∧ ¬ (x ld 10000).now < ld.since + (x ld 0).gh.msgTmo.toNat)
      ∧ ((x r 0).Calm ∧ (x r 0).findHeld 8 1 = none ∧ (x r 0).findAsm 1 8 1 = none ∧ (x r 0).gh.landings = [r] ∧ r.waitVerdict = false ∧ r.waitResend = true
        ∧ hdrOk true (hdOf 1 8) body0 = true ∧ Mh.wfmt (hdOf 1 8) = 2 ∧ Mh.lfmt (hdOf 1 8) = Mh.lfmt r.hdr ∧ r.dst = (x r 0).ownId ∧ r.ftype = .send ∧ ((x r 0).noc 9).reqCr = 0
        ∧ (x r 0).needsHalf { r with hdr := hdOf 1 8, body := body0 } true = false
        ∧ (x r 0).windowOk (x r 0).ownId true (extentLo ws.1) (extentHi ws.1) = true)
      ∧ tabFind p0.gh.outMsgs (1#16).toNat = none
      ∧ (let k : OutMsg := { om with misfit := true, keep := msgUnits (hdOf 1 2) body0 }
         tabFind (gx fun g => { g with outMsgs := [(1, k)] }).gh.outMsgs (1#16).toNat = some k ∧ k.verdict = .awaited ∧ k.misfit = true)
      ∧ (Mh.wfmt (hdOf 1 8) = 2 ∧ Fmt.ofCode (Mh.lfmt (hdOf 1 8)) = some .int8 ∧ Fmt.int8.isLedger = true)
      ∧ (Mh.wfmt (hdOf 1 0) = 2 ∧ Fmt.ofCode (Mh.lfmt (hdOf 1 0)) = some .fp32 ∧ Fmt.fp32.isLedger = false
        ∧ landsNarrow (hdOf 1 0) (msgUnits (hdOf 1 0) body0) = false)
      ∧ (o.Calm ∧ tabFind o.gh.outMsgs (1#16).toNat = some om ∧ om.verdict = .awaited ∧ om.misfit = false ∧ o.answers om.dst = false ∧ (o.lg om.lg).active = false
        ∧ om.vl < (o.lg om.lg).queues.length ∧ (o.lg om.lg).hold.getD om.vl none ≠ some (o.ownId, 1))
      ∧ (oh.Calm ∧ (oh.lg om.lg).hold.getD om.vl none = some (oh.ownId, 1))
      ∧ (oq.Calm ∧ (oq.lg om.lg).queues.getD om.vl [] = [flit0] ++ f :: [flit0] ∧ last f ∧ (∀ g ∈ [flit0] ++ [flit0], ¬ last g)) := by
  try dsimp only
  and_intros <;> first | decide | rfl | exact answers_far _ _ rfl rfl rfl (by decide) | (rw [windowOk_own]; decide)

/-- The last answer but one and the last; a newer and an equal role epoch. -/
theorem test_wit_Answers :
    let m : OutMsg := { om with acceptedAt := none }
    let x (n : Nat) := gx fun g => { g with outMsgs := [(1, m)], xfers := [(2, { xf with done := n })], expired := [(8, 5)] }
    let y : Part := { x 0 with mb := { Mb.reset with keeperUp := 1 } }
    (x 0).Still ∧ (x 0).NoFence ∧ ((8, 5) : FabId × W16) ∈ (x 0).gh.expired ∧ ((8, 6) : FabId × W16) ∉ (x 0).gh.expired ∧ m.dst = 8 ∧ tabFind (x 0).gh.outMsgs (6#16).toNat = none
      ∧ tabFind (x 0).gh.outMsgs (1#16).toNat = some m ∧ (m.ftype = .send ∨ m.ftype = .put) ∧ m.acceptedAt = none ∧ (om.acceptedAt = some 0 ∧ (gx id 99999).now < 0 + (x 0).gh.ackTmo.toNat)
      ∧ (om.expectsAck = true ∧ 0 + (x 0).gh.ackTmo.toNat ≤ (gx id 100000).now) ∧ ((8, 1) : FabId × W16) ∉ (x 0).gh.expired
      ∧ (x 0).gh.xfers = [(m.xfer.toNat, { xf with done := 0 })] ∧ (x 1).gh.xfers = [(m.xfer.toNat, { xf with done := 1 })] ∧ xf.status = 0
      ∧ 0 + 1 < xf.expected ∧ xf.expected = 1 + 1 ∧ (1#8) ≠ 0 ∧ tabFind (x 0).gh.outMsgs (65536 + (6#16).toNat) = none
      ∧ newer16 1 (y.roleOf 8) = true ∧ bitOf y.mb.keeperUp 0 = true ∧ bitOf y.mb.halted 0 = false ∧ newer16 0 (y.roleOf 8) = false
      ∧ Xb.evtEn xf.blk = true ∧ ((x 0).seq xf.seq).wait = .none ∧ ((x 0).seq xf.seq).event (Xb.event xf.blk) = (0, 0) := by
  try dsimp only
  and_intros <;> decide

/-! Tether reduction -/

/-- A Tether block of group 3, rank 0: 497 units of T16 in three chunks, a rack of 3 and a hall of 3 positions, SEQ 9. -/
def b0 : BitVec 768 := BitVec.ofNat 768 (bitsOf [(3, 0), (5, 32), (0x1C, 48), (1, 64), (0x1C, 96), (1, 106), (2, 110), (1, 113), (1, 168), (9, 184), (497, 200), (2, 244), (2, 268), (4, 280)])
/-- The same with BHOLD. -/
def b1 : BitVec 768 := b0 + BitVec.ofNat 768 (2 ^ 600)
/-- A block of one unit. -/
def b2 : BitVec 768 := setFld b0 200 32 1
def ctx0 (b : BitVec 768) : Ctx := { p0.newCtx b .member (some (2, 7, true)) false with blk := b }
def im : GroupImage :=
  { group := 3, hMinus1 := 2, floor := 0, members := [⟨0, 1, 0, false⟩, ⟨8, 1, 0, false⟩, ⟨12, 1, 0, false⟩, ⟨16, 1, 1, false⟩, ⟨20, 1, 2, false⟩], spares := [] }
def g0 : Group := Group.new im 4 false (some 0) false 8
def un : LUnit := { led := { baseRec 0 false false false false with scale := unitScale 0 }, els := List.replicate 256 1 }
def rsu : RsUnit := RsUnit.ofUnit .t16 un
/-- A running row with the hops given, arrived at time 0. -/
def rs (hops : Nat) : RowSet := { boundExt := false, startTaken := false, hops := hops, fmt := .t16, units := [un], buf := some 50, arrived := 0 }
def ch (f : Chunk → Chunk) (n : Nat) (b : BitVec 768 := b0) : Ctx := (ctx0 b).onChunk n f
/-- The context `y` open as number 5 at time `t`, the group held, every lane group a route, K0 to K3 running, no link active. -/
def withCtx (t : Nat) (y : Option Ctx) : Part :=
  let p : Part := { p0 with gh := { p0.gh with routes := [(2, 0x1FF), (3, 0x1FF), (4, 0x1FF), (5, 0x1FF)] } }
  tm t { p with ctxs := match y with | some c => [(5, c)] | none => [], groups := [(3, g0)], mb := { p.mb with keeperUp := 15 }, gb := { p.gb with base := 64 } }

theorem test_wit_TetherArrivals :
    let h (seq nu : Nat) : BitVec 128 := Ch.mk 3 2 0 false false 0x1C 0 seq nu
    let body := toBytes 8 un.led.word.toNat ++ un.els
    let m (seq nu : Nat) : ChunkMsg := ⟨1, 12, p0.ownId, 1, h seq nu, body⟩
    let x := withCtx 10 (some (ctx0 b0))
    let r := ch (fun k => { k with replay := .prepped }) 2
    let y := withCtx 10 none
    let good (h : BitVec 128) : Prop := Ch.reservedSet h = false ∧ Ch.nunits h = Tb.unitsOf b0 (Ch.chunk h) ∧ body.length = chunkBytes .t16 (Ch.nunits h) ∧ Ch.chunk h < Tb.chunks b0
    x.Calm ∧ x.findAsm 1 12 1 = none ∧ (m 9 1).dst = x.ownId ∧ x.ctxFor 0 (Ch.group (h 9 1)) = some (5, ctx0 b0) ∧ x.ctxOf 0 5 = some (ctx0 b0)
      ∧ Fmt.ofCode (Ch.fmt (h 9 1)) = some .t16 ∧ phaseFmt (ctx0 b0).blk (Ch.phase (h 9 1)) .t16 = true ∧ anyPhaseFmt (Ch.phase (h 9 1)) .t16 = true
      ∧ good (h 9 1) ∧ Ch.seq (h 9 1) = Tb.seq b0 ∧ ((ctx0 b0).chunk 2).replay ≠ .prepped ∧ (∀ u ∈ readUnits 16 128 1 body, u.led.malformed .t16 (some (ctx0 b0).se.cls.toNat) = false) ∧ x.granted x.nextId = false
      ∧ good (h 8 1) ∧ Ch.seq (h 8 1) ≠ Tb.seq b0 ∧ (r.chunk 2).replay = .prepped ∧ (withCtx 10 (some r)).ctxFor 0 3 = some (5, r) ∧ ¬ good (h 9 2)
      ∧ y.Calm ∧ y.ctxFor 0 3 = none ∧ y.mb.parked = false ∧ y.group 3 = some g0 ∧ g0.closedSeq = none ∧ y.Reaches g0.mgrId 0 := by
  try dsimp only
  and_intros <;> first | decide | rfl | exact answers_far _ _ rfl rfl rfl (by decide)

/-- A block of group 3, rank 0, in a rack of 3 without a hall, destination port 1 at 0x1000, FP32, pitch 4 lines, with the fields given. -/
def bRack (l : List (Nat × Nat)) : BitVec 768 :=
  BitVec.ofNat 768 (bitsOf ([(3, 0), (5, 32), (0x1C, 48), (1, 64), (1, 106), (2, 110), (1, 113), (1, 168), (9, 184), (497, 200), (2, 244), (4, 280), (4096, 512), (4, 576)] ++ l))
/-- A row of chunk `c` in phase 0 that has come to context 5 with `h` hops, its buffer granted. -/
def inRow (c h : Nat) : InRow := ⟨0, Ch.mk 3 c 0 false false 0x1C h 9 1, rs h, 50⟩
/-- A chunk whose own contribution is there since time 5. -/
def ready (b : BitVec 768) (c h : Nat) : Ctx := { ch (fun k => { k with contrib := some [rsu], contribAt := some 5 }) c b with ins := [inRow c h] }
/-- Context 5 with buffer 50 granted, port 2 as given. -/
def granted50 (y : Ctx) (f : NocPort → NocPort := id) : Part :=
  ((withCtx 10 (some y)).onNoc 2 f).onLarder fun l => { l with bufs := [(50, ⟨4, [(100, 4)], 0, 66⟩)] }

/-- A row that goes on, one that finishes with and without BHOLD, a finished row to deliver, and the last and an earlier write of a delivery. -/
theorem test_wit_TetherArrivals_hop :
    let bf := bRack [(0x1C, 96)]
    let bh := bRack [(0x02, 96), (1, 600)]
    let wait (x : Part) : Prop := x.Calm ∧ x.larder.queue = [] ∧ x.ssu.lodges = [] ∧ x.gh.landings = [] ∧ x.gh.lgs = [] ∧ x.twinCtxs = [] ∧ x.granted x.nextId = false
      ∧ ∀ q < 9, (x.seq q).loading = none
    let hops (y : Ctx) (c h : Nat) : Prop :=
      wait (granted50 y) ∧ y.opening = false ∧ y.role = .member ∧ (granted50 y).tableOf y = some im ∧ y.ins = [inRow c h] ∧ y.outs = [] ∧ (granted50 y).granted 50 = true
        ∧ Ch.chunk (inRow c h).hdr = c ∧ Ch.phase (inRow c h).hdr = 0 ∧ (y.chunk c).replay = .running ∧ (y.chunk c).hopDone = false ∧ (y.chunk c).held = none ∧ (y.chunk c).startAt = none
        ∧ (y.chunk c).stallAt = none ∧ y.isStart c = false ∧ (y.chunk c).contrib = some [rsu] ∧ (y.chunk c).contribAt = some 5 ∧ 5 < (rs h).arrived + Tb.budget y.blk * 1000
    let o : OutRow := { mkOut 1 3 0 0 .t16 false false [un] none with dst := none, need := 50, owned := false }
    let del := { ctx0 bf with outs := [o] }
    let due (n : Nat) : Ctx := { ctx0 bf with chunks := [(1, { Chunk.reset with due := n })] }
    let x (y : Ctx) := granted50 y fun n => { n with openReqs := [(7, (⟨true, 4096, 64, [1], .deliver 0 5 1, []⟩, 0))] }
    (hops (ready bf 2 1) 2 1 ∧ ((ready bf 2 1).rackNext im 2).2 = some 8)
      ∧ (hops (ready bf 1 2) 1 2 ∧ ((ready bf 1 2).rackNext im 3).2 = none ∧ Tb.hsize bf = 0 ∧ ((ready bf 1 2).chunk 1).late = false ∧ Fmt.ofCode (Tb.rfmt bf) = some .t16
        ∧ Tb.bhold bf = false ∧ ((ready bf 1 2).rackNext im 1).2.isSome = true)
      ∧ (hops (ready bh 1 2) 1 2 ∧ ((ready bh 1 2).rackNext im 3).2 = none ∧ Fmt.ofCode (Tb.rfmt bh) = some .bf16 ∧ Tb.bhold bh = true ∧ (ready bh 1 2).bcast = false)
      ∧ (wait (granted50 del fun n => { n with reqCr := 0 }) ∧ del.ins = [] ∧ del.outs = [o] ∧ o.dst = none ∧ o.rel = none ∧ o.need = 50 ∧ Tb.hopWs del.blk = 2
        ∧ ((granted50 del fun n => { n with reqCr := 0 }).noc 2).reqCr = 0)
      ∧ ((x (due 1)).Calm ∧ tabFind ((x (due 1)).noc 2).openReqs (7#8).toNat = some (⟨true, 4096, 64, [1], .deliver 0 5 1, []⟩, 0) ∧ ((x (due 1)).noc 2).waiting = []
        ∧ (x (due 1)).ctxOf 0 5 = some (due 1) ∧ (due 1).role = .member ∧ (due 1).doneSent = false ∧ ((due 1).chunk 1).delBuf = none ∧ ((due 1).chunk 1).due = 1
        ∧ (x (due 1)).group 3 = some g0 ∧ (x (due 1)).Reaches g0.mgrId 0)
      ∧ ((x (due 2)).ctxOf 0 5 = some (due 2) ∧ 2 ≤ ((due 2).chunk 1).due) := by
  try dsimp only
  and_intros <;> first | decide | rfl | exact answers_far _ _ rfl rfl rfl (by decide)

/-- The one answer that makes the delivery whole. -/
theorem test_wit_TetherArrivals_done :
    let d : Chunk := { Chunk.reset with delivered := true, counted := true }
    let y : Ctx := { ctx0 (bRack [(0x1C, 96)]) with chunks := [(0, d), (1, d), (2, d)], deliveredCnt := 3 }
    y.allDone = true := by
  try dsimp only
  decide

/-- A hop in the format of both units, one that needs an exponent more, one past the exponents it may take, and each pair of elements. -/
theorem test_wit_TetherArrivals_units :
    let big : RsUnit := { rsu with ue := 1, els := [.fin 30000, .fin 3, .pinf, .pinf, .pinf, .pinf] }
    let big2 : RsUnit := { rsu with els := [.fin 10001, .fin (-5), .pinf, .ninf, .nan, .fin 1] }
    let top : RsUnit := { rsu with ue := 4, els := [.fin 30000] }
    let c : RunCfg := { x48 := false, key := 7, h := 1, i0 := 0 }
    let fits (e : Int) (a b : RsUnit) : Bool := (hopAt c e a b).all (inRange (maxMant false))
    (rsu.led.exact || rsu.led.exact || decide (4096 ≤ 1)) = false ∧ fits (max rsu.ue rsu.ue) rsu rsu = true
      ∧ fits 1 big { big2 with ue := 1 } = false ∧ 1 < (0 : Int) + 3 ∧ fits 2 big { big2 with ue := 1 } = true
      ∧ fits 4 top top = false ∧ (0 : Int) + 3 ≤ 4
      ∧ big.els[0]? = some (.fin 30000) ∧ big2.els[0]? = some (.fin 10001)
      ∧ big.els[2]? = some .pinf ∧ big2.els[2]? = some .pinf ∧ big2.els[3]? = some .ninf ∧ big2.els[4]? = some .nan ∧ big2.els[5]? = some (.fin 1) := by
  try dsimp only
  and_intros <;> decide

/-- Rows of other chains: C1 to die memory, C4 to the Gatehouse, the last row, C9, and both halves of a pair. -/
theorem test_wit_RowArrives_chains :
    let x (j : DrainJob) (c : Tab Ctx := []) : Part := { (withJob j).onNoc 2 fun n => { n with reqCr := 0 } with ctxs := c }
    let jw (d : List (Nat × Nat)) (m : WMode) : DrainJob := { jb with started := true, desc := desc d, mode := m }
    let runs (x : Part) (j : DrainJob) : Prop := x.Calm ∧ (x.dp 17).exec = some j ∧ x.rowReady 17 j = true ∧ j.mode ≠ .lodge ∧ j.lodge = none
    let j1 := jw [(1, 0), (2, 5), (3, 30)] .plain
    let j4 := jw [(4, 0), (8, 5), (1, 28), (3, 30)] .live
    let j9 := jw [(9, 0), (0x1C, 5), (2, 28), (3, 30)] .plain
    let row : List W32 := List.replicate 128 0x3F800000
    let out (j : DrainJob) := j.stages 0 j.row 128 (row.map ofFp32)
    let lead : DrainJob := { j4 with pair := .lead 18, mate := some 6 }
    let b (h : List (List W32 × Bool)) : DrainJob := { j4 with id := 6, pair := .partner 17, held := h, rowsIn := h.length }
    let y (h : List (List W32 × Bool)) : Part := (x lead).onDp 18 fun d => { d with exec := some (b h) }
    (runs (x j1) j1 ∧ j1.pair = .single ∧ Desc.chain j1.desc ≠ 9 ∧ ((x j1).noc 2).reqCr = 0 ∧ Desc.dest j1.desc = 0 ∧ ((j1.encode (out j1) (out j1).vals false).raw).length % 64 = 0
        ∧ (j1.encode (out j1) (out j1).vals false).unit = none ∧ j1.row + 1 < Desc.rows j1.desc)
      ∧ (let l := { j1 with row := 3 }; runs (x l) l ∧ l.row + 1 = Desc.rows l.desc ∧ ((x l).dp 17).pend = none ∧ l.ctxGone = false)
      ∧ (let l := { jw [(1, 0), (2, 5), (2, 28), (3, 30)] .plain with row := 3, ctxGone := true }
         runs (x l) l ∧ l.row + 1 = Desc.rows l.desc ∧ ((x l).dp 17).pend = none ∧ Desc.dest l.desc = 2 ∧ l.pair = .single ∧ Desc.chain l.desc ≠ 9
           ∧ (l.encode (out l) (out l).vals false).unit.isSome = true)
      ∧ (runs (x j4) j4 ∧ Desc.dest j4.desc ≠ 0 ∧ (j4.encode (out j4) (out j4).vals false).unit.isSome = true ∧ j4.row + 1 < Desc.rows j4.desc)
      ∧ (runs (x j9 [(0, ctx0 b0)]) j9 ∧ Desc.chain j9.desc = 9 ∧ Desc.dest j9.desc = 2 ∧ tabFind (x j9 [(0, ctx0 b0)]).ctxs (Desc.tag j9.desc % 64) = some (ctx0 b0)
        ∧ (Fmt.ofCode (Desc.tfmt j9.desc)).any Fmt.isRun = true)
      ∧ (runs (y []) lead ∧ lead.pair = .lead 18 ∧ ((y []).dp 18).exec = some (b []) ∧ (b []).held = [])
      ∧ (runs (y [(row, false)]) lead ∧ lead.held = [] ∧ lead.mate = some (b []).id ∧ ((y [(row, false)]).dp 18).exec = some (b [(row, false)]) ∧ (b [(row, false)]).held = (row, false) :: []
        ∧ (b [(row, false)]).pair = .partner 17 ∧ Desc.chain lead.desc ≠ 9 ∧ Desc.chain lead.desc ≠ 11 ∧ (b [(row, false)]).row + 1 ≠ Desc.rows (b [(row, false)]).desc) := by
  try dsimp only
  and_intros <;> decide

/-- The pure clauses: a chain with a scale of its own, a rotation block of 16 with and without a NaN, targets with and without a sign bit. -/
theorem test_wit_RowArrives_pure :
    (FwdCfg.mk true true 0 none none).ifmt = none ∧ ([Val.zero] : List Val)[0]? = some .zero
      ∧ ((16, -2, -2) : Nat × Int × Int) ∈ ([(16, -2, -2), (32, -2, -3), (64, -3, -3), (128, -3, -4), (256, -4, -4)] : List (Nat × Int × Int))
      ∧ (List.replicate 16 Val.zero).length = 16 ∧ (List.replicate 16 Val.zero).all Val.isFin = true ∧ (Val.nan true :: List.replicate 15 Val.zero).all Val.isFin = false
      ∧ Fmt.ofCode (Desc.tfmt (desc [(4, 0), (8, 5)])) = some .int8 ∧ Fmt.int8.isLedger = true ∧ Fmt.int8.float? = none ∧ Fmt.e4m3.float?.isSome = true := by
  try dsimp only
  and_intros <;> decide

/-- A deposit that completes a context of one unit, one of a context that is gone. -/
theorem test_wit_TetherDeposits :
    let d : Deposit := { ctx := 5, rowblk := 0, tile := 0, tiles := 1, fmt := .t16, units := [un], keep := [], misfit := false, buf := some 50, keepBuf := none }
    let x (y : Option Ctx) : Part := (withCtx 10 y).onWs 2 fun w => { w with deposits := [d] }
    let z : Part := { x (some (ctx0 b2)) with groups := [] }
    let y := ctx0 b2
    let num (i : Nat) : Nat := (d.rowblk * 128 + i) * d.tiles + d.tile
    ((withCtx 10 none).Calm ∧ ((withCtx 10 none).ws 2).deposits = []) ∧ ((x none).Calm ∧ ((x none).ws 2).deposits = d :: [] ∧ (x none).ctxOf 0 d.ctx = none)
      ∧ (z.Calm ∧ (z.ws 2).deposits = d :: [] ∧ z.ctxOf 0 d.ctx = some y ∧ y.role = .member ∧ Tb.depExp y.blk = 1 ∧ z.tableOf y = none ∧ d.units ≠ [] ∧ 0 < d.tiles
        ∧ (∀ i, i < d.units.length → num i < Tb.nunits y.blk ∧ tabFind (y.chunk (num i / Tb.uc y.blk)).deps (num i) = none
            ∧ (y.chunk (num i / Tb.uc y.blk)).absent = false) ∧ (∀ k, (y.chunk k).held = none) ∧ d.buf = some 50
        ∧ d.units = [un] ∧ Tb.nunits y.blk = 1 ∧ (y.chunk 0).contrib = none ∧ (y.chunk 0).delivered = false ∧ (y.chunk 0).finished = none)
      ∧ (let v (k : Chunk → Chunk) : Ctx := (ctx0 (setFld b2 106 4 2)).onChunk 0 k
         let q (y : Ctx) (d : Deposit) : Part :=
           { withCtx 10 (some y) with groups := [], larder := { Larder.reset with bufs := [(60, ⟨4, [(100, 4)], 0, 66⟩)] } }.onWs 2 fun w => { w with deposits := [d] }
         (∀ y ∈ [v id, v fun k => { k with accs := [(2, 60)] }], (q y d).Calm ∧ (q y d).ctxOf 0 d.ctx = some y ∧ y.role = .member ∧ 2 ≤ Tb.depExp y.blk ∧ num 0 < Tb.nunits y.blk
            ∧ (y.chunk 0).absent = false ∧ tabFind (y.chunk 0).deps 0 = none)
          ∧ tabFind ((v id).chunk 0).accs 2 = none ∧ (q (v id) d).granted (q (v id) d).nextId = false
          ∧ (let a := v fun k => { k with accs := [(2, 60)] }
             tabFind (a.chunk 0).accs 2 = some 60 ∧ (q a d).granted 60 = true ∧ (q a d).tableOf a = none ∧ some 60 ≠ d.buf ∧ some 60 ≠ d.keepBuf)
          ∧ Tb.nunits y.blk ≤ (({ d with rowblk := 1 } : Deposit).rowblk * 128 + 0) * d.tiles + d.tile
          ∧ (let f := v fun k => { k with deps := [(0, ⟨2, rsu.led, [(2, rsu)]⟩)], contrib := some [rsu] }
             tabFind (f.chunk 0).deps 0 = some ⟨2, rsu.led, [(2, rsu)]⟩ ∧ Tb.depExp f.blk ≤ 2 ∧ (f.chunk 0).contrib.isSome = true ∧ (f.chunk 0).absent = false ∧ f.role = .member)
          ∧ (let g (l : Bool) := v fun k => { k with absent := true, late := l }
             ((g false).chunk 0).absent = true ∧ ((g false).chunk 0).late = false ∧ ((g true).chunk 0).late = true ∧ (q (g false) d).group (Tb.group (g false).blk) = none))
      ∧ (let u : UnitDep := ⟨1, rsu.led, [(2, rsu)]⟩
         tabFind u.sums 2 = some rsu ∧ rsu.led.epoch = 0 ∧ rsu.led.rotated = u.first.rotated ∧ rsu.led.smoothed = u.first.smoothed ∧ rsu.els[0]? = some (RsEl.fin 257)) := by
  try dsimp only
  and_intros <;> first | decide | exact fun _ => rfl

/-- Each window of R183, R184 and R259 at its end and one nanosecond before it, in the rack and in the hall. -/
theorem test_wit_TetherWindows :
    let x (t : Nat) (y : Ctx) := withCtx t (some y)
    let held := ch (fun k => { k with held := some (rs 0) }) 2
    let hall := ch (fun k => { k with heldHall := some (rs 0) }) 2
    let start := ch (fun k => { k with startAt := some 0, contrib := some [rsu] }) 2
    let hstart := ch (fun k => { k with startAt := some 0, hopDone := true, rackRow := some (rs 0) }) 2
    let stall := ch (fun k => { k with stallAt := some 0, contrib := some [rsu] }) 0
    Tb.budget b0 * 1000 = 1000 ∧ Tb.group b0 = 3 ∧ Tb.rank b0 < 4096 ∧ g0.img = im ∧ g0.mgrId = 8
      ∧ ((x 1000 held).Calm ∧ (x 1000 held).ctxOf 0 5 = some held ∧ (x 1000 held).ctxOf 1 5 = none ∧ (held.chunk 2).held = some (rs 0) ∧ (held.chunk 2).hopDone = false ∧ held.role = .member
        ∧ (rs 0).arrived + 1000 ≤ (x 1000 held).now ∧ (x 999 held).now < (rs 0).arrived + 1000 ∧ (x 1000 held).group 3 = some g0 ∧ (x 1000 held).Reaches 8 0
        ∧ (held.rackNext im ((rs 0).hops + 1)).2.isSome = true ∧ (∀ r ∈ (x 1000 held).larder.queue, r.id ∉ (held.chunk 2).accs.map Prod.snd ∧ r.id ∉ (held.chunk 2).depBufs))
      ∧ ((x 1000 hall).ctxOf 0 5 = some hall ∧ (hall.chunk 2).held = none ∧ (hall.chunk 2).heldHall = some (rs 0) ∧ (hall.chunk 2).hallDone = false
        ∧ (hall.hallNext im 2 ((rs 0).hops + 1)).2.isSome = true)
      ∧ ((x 10 (ctx0 b0)).ctxOf 0 5 = some (ctx0 b0) ∧ ((ctx0 b0).chunk 2).held = none ∧ ((ctx0 b0).chunk 2).heldHall = none ∧ ((ctx0 b0).chunk 2).startAt = none
        ∧ ((ctx0 b0).chunk 2).stallAt = none)
      ∧ ((x 1000 start).ctxOf 0 5 = some start ∧ (start.chunk 2).startAt = some 0 ∧ 0 + 1000 ≤ (x 1000 start).now ∧ (x 999 start).now < 0 + 1000
        ∧ (x 1000 start).tableOf start = some im ∧ (start.chunk 2).hopDone = false ∧ (start.chunk 2).held = none ∧ start.isSuccessor im 2 = true
        ∧ (start.contribution 2).isSome = true ∧ (x 1000 start).rowComing 0 5 2 0 = none
        ∧ (x 1000 { start with ins := [⟨1, Ch.mk 3 2 0 false false 0x1C 0 9 1, rs 0, 60⟩] }).rowComing 0 5 2 0 = some 0 ∧ 0 < 0 + 1000
        ∧ (start.rackNext im ((Tb.rpos b0 + (Tb.rsize b0 + 1) - 2 % (Tb.rsize b0 + 1)) % (Tb.rsize b0 + 1) + 1)).2.isSome = true)
      ∧ ((x 1000 hstart).ctxOf 0 5 = some hstart ∧ (hstart.chunk 2).hopDone = true ∧ (hstart.chunk 2).rackRow = some (rs 0) ∧ (hstart.chunk 2).hallDone = false
        ∧ (hstart.chunk 2).heldHall = none ∧ (x 1000 hstart).rowComing 0 5 2 1 = none ∧ hstart.isHallSuccessor im 2 = true
        ∧ (hstart.hallNext im 2 ((Tb.hpos b0 + (Tb.hsize b0 + 1) - 2 % (Tb.hsize b0 + 1)) % (Tb.hsize b0 + 1) + 1)).2.isSome = true)
      ∧ (let z : Part := { x 1000 hstart with ctxs := [], twinCtxs := [(5, hstart)] }
         z.Calm ∧ z.ctxOf 1 5 = some hstart ∧ z.ctxOf 0 5 = none ∧ 0 + Tb.budget hstart.blk * 1000 ≤ z.now ∧ z.tableOf hstart = some im ∧ z.rowComing 1 5 2 1 = none)
      ∧ ((x 10000000 stall).ctxOf 0 5 = some stall ∧ (stall.chunk 0).stallAt = some 0 ∧ 0 + ((x 10000000 stall).ws (Tb.hopWs b0)).stallTmo.toNat ≤ (x 10000000 stall).now
        ∧ (x 9999999 stall).now < 0 + ((x 9999999 stall).ws (Tb.hopWs b0)).stallTmo.toNat) := by
  try dsimp only
  and_intros <;> first | decide | exact answers_far _ _ rfl rfl rfl (by decide)

/-- Sequencer `q` at the word `w`, the block `b` at word 8 of its Spool. -/
def prog (q : Nat) (w : W64) (b : BitVec 768) (p : Part) (f : Seq → Seq := id) : Part :=
  p.onSeq q fun x => f { x with st := 1, loaded := true, spool := [w, 0, 0, 0, 0, 0, 0, 0] ++ (List.range 12).map fun i => BitVec.ofNat 64 (fld b (64 * i) 64) }

theorem test_wit_TetherInstructions :
    let wOpen := iw [(0x10, 0), (5, 20), (8, 26), (7, 41), (1, 49)]
    let wClose := iw [(0x10, 0), (1, 18), (5, 20)]
    let wB := iw [(0x11, 0), (5, 18)]
    let reads (x : Part) (q : Nat) (w : W64) (opc op lo : Nat) : Prop := x.Issues q w ∧ IW.opc w = opc ∧ (opc = 0x10 → fld w 18 2 = op) ∧ fld w lo (64 - lo) = 0
    let x := prog 2 wOpen b0 (withCtx 10 none)
    let bad := setFld b0 200 32 0
    let badR := setFld b0 96 5 31
    let opn : Ctx := { ctx0 b0 with opening := true }
    let o : Part := (withCtx 10 (some opn)).onSeq 2 fun x => { x with st := 2, wait := .tetherOpen 5 }
    let fin := ch (fun k => { k with bcastHeld := true, finished := some (rs 0) }) 2 b1
    let z := prog 2 wB b0 (withCtx 10 (some fin))
    (x.Calm ∧ x.NoFence ∧ reads x 2 wOpen 0x10 0 50 ∧ fld wOpen 26 15 % 8 = 0 ∧ (x.seq 2).block (fld wOpen 26 15) 12 = some b0.toNat
        ∧ x.ctxOf 0 (fld wOpen 20 6) = none ∧ Tb.adjust (BitVec.ofNat 768 b0.toNat) 0 0 0 = b0 ∧ blockReason b0 false = 0
        ∧ signsPast (x.stream (Tb.stream b0)) (x.stream (Tb.stream b0)).tiles = false
        ∧ blockReason bad false = 2 ∧ blockReason badR false = 3)
      ∧ (let y := prog 2 wOpen b0 (withCtx 10 (some (ctx0 b0))); y.ctxOf 0 (fld wOpen 20 6) = some (ctx0 b0) ∧ (ctx0 b0).owner ≠ none)
      ∧ (o.Calm ∧ o.NoFence ∧ o.ctxOf 0 5 = some opn ∧ opn.opening = true ∧ opn.owner = some (2, 7, true) ∧ o.mb.runs 0 = true ∧ (o.seq 2).wait = .tetherOpen 5
        ∧ o.tableReason opn.blk = false ∧ opn.failReason = 0 ∧ Tb.expSrc opn.blk = 0 ∧ Tb.partSrc opn.blk = false ∧ { o with groups := [] }.tableReason opn.blk = true ∧ opn.role = .member ∧ opn.chunks = []
        ∧ ({ opn with failReason := 5 } : Ctx).failReason ≠ 0 ∧ o.tableReason ({ opn with failReason := 5 } : Ctx).blk = false)
      ∧ (let e (n : Nat) : Ctx := { opn with blk := setFld b0 54 2 n }
         let s (n : Nat) (cal : Tab W64) (envs : Tab Env) : Part :=
           { o with ctxs := [(5, e n)], ssu := { o.ssu with cal := cal, envs := envs } }
         let entry (x : Part) (n : Nat) := tabGet x.ssu.cal (((e n).se.calBase.toNat + Tb.calidx (e n).blk) % 65536) 0
         let good := s 1 [(0, 0x88003F80#64)] []
         let full := s 2 [] [(1, { Env.reset with ring := [(0x3F80, 0)], eHi := 0x3F80, eLo := 0 })]
         let a (x : Part) := Q.mul ⟨16 + (e 2).se.headroom.toNat, 16⟩ (Q.maxQ (bfQ (x.env (Tb.stream (e 2).blk)).eHi) (Q.neg (bfQ (x.env (Tb.stream (e 2).blk)).eLo)))
         good.ctxOf 0 5 = some (e 1) ∧ good.tableReason (e 1).blk = false ∧ Tb.expSrc (e 1).blk = 1 ∧ Tb.expSrc (e 2).blk = 2
           ∧ Cal.usable (entry good 1) (e 1).se = true ∧ Fmt.ofCode (Cal.fmt (entry good 1)) = some .int8 ∧ Fmt.int8.isLedger = true
           ∧ Cal.usable (entry (s 1 [] []) 1) (e 1).se = false
           ∧ ((s 2 [] []).env (Tb.stream (e 2).blk)).ring = [] ∧ (full.env (Tb.stream (e 2).blk)).ring ≠ [] ∧ Q.isZero (a full) = false)
      ∧ (let y := prog 2 wClose b0 (withCtx 10 (some (ctx0 b0)))
         y.Calm ∧ y.NoFence ∧ reads y 2 wClose 0x10 1 26 ∧ fld wClose 6 12 = 0 ∧ y.ctxOf 0 (fld wClose 20 6) = some (ctx0 b0) ∧ (ctx0 b0).opening = false)
      ∧ (let y := prog 2 wB b0 (withCtx 10 none); reads y 2 wB 0x11 0 24 ∧ fld wB 6 12 = 0 ∧ y.ctxOf 0 (fld wB 18 6) = none)
      ∧ (z.Calm ∧ z.NoFence ∧ reads z 2 wB 0x11 0 24 ∧ z.ctxOf 0 (fld wB 18 6) = some fin ∧ fin.opening = false ∧ Tb.bhold fin.blk = true ∧ fin.chunks = [(2, fin.chunk 2)]
        ∧ (fin.chunk 2).bcastHeld = true ∧ (fin.chunk 2).finished = some (rs 0) ∧ z.tableOf fin = some im
        ∧ z.granted ((rs 0).buf.getD 0) = false ∧ (∀ i ∈ fin.ins, z.granted i.need = false) ∧ (∀ o ∈ fin.outs, z.granted o.need = false))
      ∧ reads (prog 8 wOpen b0 (withCtx 10 none)) 8 wOpen 0x10 0 50 ∧ reads (prog 8 wClose b0 (withCtx 10 none)) 8 wClose 0x10 1 26
      ∧ reads (prog 8 wB b0 (withCtx 10 none)) 8 wB 0x11 0 24 := by
  try dsimp only
  and_intros <;> decide

/-- A block with each reason that R250 gives, and the tables it is held against. -/
theorem test_wit_TetherInstructions_reasons :
    let two (b : BitVec 768) : Prop :=
      Tb.reservedSet b = true ∨ Tb.msize b = 0 ∨ Tb.msize b ≤ Tb.rank b ∨ Tb.rsize b < Tb.rpos b ∨ Tb.hsize b < Tb.hpos b ∨ 8 < Tb.depExp b
        ∨ (Tb.depExp b = 0 ↔ Tb.partSrc b = false) ∨ Tb.budget b = 0 ∨ Tb.nunits b = 0 ∨ Tb.lgMask b = 0 ∨ Tb.expSrc b = 3 ∨ Tb.exp0 b < -126
        ∨ (Tb.fmt b ≠ 0x1C ∧ Tb.fmt b ≠ 0x1D) ∨ Tb.dest b % 64 ≠ 0 ∨ Tb.partOff b % 64 ≠ 0
    let result (b : BitVec 768) : Prop := Tb.rfmt b = Tb.fmt b ∨ Tb.rfmt b ∈ ([0, 2, 3, 4, 5, 6, 7, 8, 9, 10] : List Nat)
    let y := withCtx 10 none
    two (setFld b0 200 32 0) ∧ (¬ two (setFld b0 96 5 31) ∧ ¬ result (setFld b0 96 5 31)) ∧ (¬ two (setFld b0 101 2 3) ∧ result (setFld b0 101 2 3) ∧ 2 < Tb.dfmt (setFld b0 101 2 3))
      ∧ (¬ two b0 ∧ result b0 ∧ Tb.dfmt b0 ≤ 2)
      ∧ ([] : Tab Group).find? (fun g => decide (g.2.slot = Tb.gtab b0)) = none ∧ y.groups.find? (fun (g : Nat × Group) => decide (g.2.slot = Tb.gtab b0)) = some (3, g0) := by
  try dsimp only
  and_intros <;> decide

/-! Transfers, conversions, the Courier -/

/-- A block of BF16, two rows of two tiles, transfer 4, event 7, to identity `d`. -/
def xb (d : Nat) : BitVec 512 := BitVec.ofNat 512 (bitsOf [(2, 0), (2, 5), (4, 28), (0xFF, 36), (7, 44), (1, 52), (0x1000, 64), (d, 111), (2, 256), (2, 280), (64, 320), (64, 344)])
/-- The same with a format of no meaning. -/
def xBad : BitVec 512 := setFld (xb 8) 0 5 31
def routed (p : Part) : Part := { p with gh := { p.gh with routes := [(2, 0x1FF), (3, 0x1FF)] } }
/-- Sequencer 2 at OPEN of opcode `k`, its block at word 8. -/
def opens (k : Nat) (b : BitVec 512) (p : Part := routed p0) : Part :=
  p.onSeq 2 fun x => { x with st := 1, loaded := true, spool := [iw [(k, 0), (8, 19)], 0, 0, 0, 0, 0, 0, 0] ++ (List.range 8).map fun i => BitVec.ofNat 64 (fld b (64 * i) 64) }

theorem test_wit_TransferOpens :
    let w (k : Nat) := iw [(k, 0), (8, 19)]
    let reads (k : Nat) (b : BitVec 512) (x : Part) : Prop := x.Still ∧ x.Issues 2 (w k) ∧ IW.opc (w k) = k ∧ bitOf (w k) 18 = false ∧ fld (w k) 34 30 = 0
      ∧ fld (w k) 19 15 % 8 = 0 ∧ (x.seq 2).block (fld (w k) 19 15) 8 = some b.toNat ∧ Xb.adjust (BitVec.ofNat 512 b.toNat) 0 0 0 = b
    let busy : Part := { routed p0 with gh := { (routed p0).gh with xfers := [(4, xf)] } }
    reads 2 (xb 8) (opens 2 (xb 8)) ∧ reads 3 (xb 8) (opens 3 (xb 8)) ∧ reads 4 (xb 8) (opens 4 (xb 8)) ∧ reads 2 xBad (opens 2 xBad) ∧ reads 2 (xb 64) (opens 2 (xb 64))
      ∧ reads 4 (xb 8) (opens 4 (xb 8) busy)
      ∧ tabFind (opens 2 (xb 8)).gh.xfers (Xb.xfer (xb 8)) = none ∧ xferBad .put xBad .reset false = true ∧ xferBad .get xBad .reset false = true ∧ xferBad .send xBad .reset false = true
      ∧ xferBad .put (xb 64) .reset false = false ∧ (opens 2 (xb 64)).answers (addrId (Xb.remote (xb 64))) = false
      ∧ (opens 2 (xb 64)).route (addrId (Xb.remote (xb 64))) (Xb.lgmask (xb 64)) = none
      ∧ xferBad .put (xb 8) .reset false = false ∧ xferBad .get (xb 8) .reset false = false ∧ xferBad .send (xb 8) .reset false = false
      ∧ (opens 2 (xb 8)).gh.lgs = [] ∧ (opens 2 (xb 8)).gh.outMsgs = [] ∧ (opens 2 (xb 8)).gh.srcJobs = []
      ∧ (opens 2 (xb 8)).answers (addrId (Xb.remote (xb 8))) = false ∧ ((opens 2 (xb 8)).route (addrId (Xb.remote (xb 8))) (Xb.lgmask (xb 8))).isSome = true
      ∧ tabFind (opens 4 (xb 8) busy).gh.xfers (Xb.xfer (xb 8)) = some xf ∧ 0 < Xb.messages (xb 8) := by
  try dsimp only
  and_intros <;> first | decide | exact answers_far _ _ rfl rfl rfl (by decide)

theorem test_wit_CvtPresents :
    let w (dp : Nat) := iw [(8, 0), (8, 18), (dp, 33)]
    let odd := iw [(8, 0), (9, 18), (17, 33)]
    let s (q dp : Nat) (d : BitVec 128) (p : Part) : Part := sq q [w dp, 0, 0, 0, 0, 0, 0, 0, BitVec.ofNat 64 (fld d 0 64), BitVec.ofNat 64 (fld d 64 64)] p
    let code (d : BitVec 128) : Nat := descCheck d (p0.stream (Desc.stream d)) ((p0.dp 17).ctx (Desc.ctx d)) (p0.env (Desc.stream d)).wide false ((p0.lodge (Desc.lodge d)).joinOk d) false (p0.tagOk d)
    let dBad : BitVec 128 := setFld dOk 5 5 31
    let full := p0.onDp 17 fun d => { d with exec := some jb, pend := some jb }
    let x := s 2 17 dOk p0
    x.Calm ∧ x.Issues 2 (w 17) ∧ IW.opc (w 17) = 8 ∧ fld (w 17) 39 25 = 0 ∧ (s 8 17 dOk p0).Issues 8 (w 17) ∧ fld (w 17) 33 6 / 8 = 2
      ∧ (s 2 15 dOk p0).Issues 2 (w 15) ∧ fld (w 15) 33 6 / 8 ≠ 2 ∧ (s 2 24 dOk p0).Issues 2 (w 24) ∧ fld (w 24) 33 6 / 8 ≠ 2
      ∧ (sq 2 [odd] p0).Issues 2 odd ∧ fld odd 18 15 % 2 = 1 ∧ fld (w 17) 18 15 % 2 = 0 ∧ (x.seq 2).block (fld (w 17) 18 15) 2 = some dOk.toNat
      ∧ (x.dp 17).fenced = false ∧ (x.dp 17).exec = none ∧ Desc.chain dOk = 0 ∧ Desc.pair dOk = false ∧ code dOk = 0
      ∧ ((s 2 17 dBad p0).seq 2).block (fld (w 17) 18 15) 2 = some dBad.toNat ∧ code dBad ≠ 0 ∧ Desc.evtEn dBad = false ∧ Desc.chain dBad = 0 ∧ ¬ (s 2 17 dBad p0).LodgeOver (Desc.lodge dBad)
      ∧ (s 2 17 dOk full).Calm ∧ (full.dp 17).fenced = false ∧ (full.dp 17).exec ≠ none ∧ (full.dp 17).pend ≠ none := by
  try dsimp only
  and_intros <;> decide

/-- Courier group 1, bound under binding 3, as given. -/
def cg (f : CrGroup → CrGroup) (t : Nat := 10) (p : Part := p0) : Part :=
  tm t ({ p with courier := { p.courier with en := true } }.onCrg 1 fun c => f { c with bound := true, cepoch := 3, data := List.replicate 16 0x3F800000 })
def cacc : CrPart := { rank := 0, count := 1, absent := false, ovf := false, data := List.replicate 16 0x3F800000 }
def cr0 : CourierRec :=
  { src := 8, dst := 0, cgrp := 1, op := 0, len8 := 1, absent := false, ovf := false, cepoch := 3, cseq := 5, count := 1, data := List.replicate 4 0x40000000 }

/-- A lone member, a leaf, a leader; a flit of the binding, of another, early and late; a window one nanosecond before its end and at it. -/
theorem test_wit_Courier :
    let v : W32 := BitVec.ofNat 32 (bitsOf [(1, 2), (5, 8)])
    let can (x : Part) : Prop := (x.crg 1).busy = false ∧ (x.crg 1).bound = true ∧ x.courier.en = true ∧ ∀ t0, (x.crg 1).doneAt = some t0 → t0 / 5 ≠ x.now / 5
    let again (t : Nat) := cg (fun c => { c with doneAt := some 11 }) t
    let fits (x : Part) : Prop := (x.crg 1).level = 0 ∧ (x.crg 1).acc = none ∧ (x.crg 1).parts = [] ∧ (x.crg 1).sinces = [none, none, none, none]
    let asleep (x : Part) : Prop := (x.lg x.crLane).active = false ∧ (x.lg x.crLane).queues.length = 6
    let lone := cg id
    let leaf := cg fun c => { c with parent := some 8 }
    let lead := cg fun c => { c with children := [(1, 8)] }
    let early := cg fun c => { c with children := [(1, 8)], cseq := 5 }
    let late := cg fun c => { c with children := [(1, 8)], cseq := 5, level := 1 }
    let half (t : Nat) := cg (fun c => { c with busy := true, children := [(1, 8)], acc := some cacc, cseq := 5, sinces := [some 0, none, none, none] }) t
    let bar := iw [(0x12, 0), (1, 18), (2, 22), (7, 27), (1, 35)]
    let sum := iw [(0x12, 0), (1, 18), (1, 22), (3, 24), (7, 27), (1, 35)]
    p0.Calm ∧ p0.shut = false ∧ ¬ can p0 ∧ ((again 14).crg 1).doneAt = some 11 ∧ ¬ 11 / 5 ≠ (again 14).now / 5 ∧ 11 / 5 ≠ (again 15).now / 5 ∧ (again 15).Calm ∧ BitVec.ofNat 2 (fld (3 : W32) 0 2) = 3#2 ∧ BitVec.ofNat 2 (fld v 0 2) ≠ 3#2
      ∧ (lone.Calm ∧ lone.shut = false ∧ can lone ∧ fits lone ∧ (lone.crg 1).children = [] ∧ (lone.crg 1).parent = none)
      ∧ (can leaf ∧ fits leaf ∧ (leaf.crg 1).children = [] ∧ (leaf.crg 1).parent = some 8 ∧ asleep leaf)
      ∧ (can lead ∧ fits lead ∧ (lead.crg 1).children ≠ [] ∧ 0 < (lead.crg 1).leads ∧ (lead.crg 1).levelFull 1 = false)
      ∧ ((sq 2 [bar] lone).Issues 2 bar ∧ IW.opc bar = 0x12 ∧ fld bar 36 28 = 0 ∧ fld bar 18 4 = 1 ∧ fld bar 22 2 = 2 ∧ IW.ga bar = 0 ∧ IW.gb bar = 0
        ∧ ((sq 2 [bar] lone).seq 2).event (fld bar 27 8) = (0, 0))
      ∧ (let x := sq 2 [sum] lone
         x.Issues 2 sum ∧ IW.opc sum = 0x12 ∧ fld sum 36 28 = 0 ∧ fld sum 18 4 = 1 ∧ fld sum 22 2 < 2 ∧ badWordOff ((x.seq 2).reg (IW.ga sum)) = false
           ∧ badWordOff ((x.seq 2).reg (IW.gb sum)) = false ∧ (x.noc 2).waiting = [] ∧ (x.noc 2).openReqs = [] ∧ 1 ≤ (x.noc 2).reqCr ∧ (x.noc 2).merging = false)
      ∧ (cr0.cgrp = 1 ∧ (early.crg 1).bound = true ∧ early.courier.en = true ∧ ({ cr0 with cepoch := 4 } : CourierRec).cepoch ≠ (early.crg 1).cepoch
        ∧ cr0.cepoch = (early.crg 1).cepoch ∧ cr0.cseq = (early.crg 1).cseq ∧ { early with courier := { early.courier with en := false } }.courier.en = false)
      ∧ ((early.crg 1).children.find? (fun i => decide (i.2 = cr0.src)) = some (1, 8) ∧ crLevel (early.crg 1).rank.toNat 1 = 1 ∧ 1 ≤ (late.crg 1).level
        ∧ (early.crg 1).level < 1 ∧ (early.crg 1).sinces.getD (1 - 1) none = none ∧ (early.crg 1).parts = [] ∧ (early.crg 1).acc = none)
      ∧ (((half 19999).crg 1).children = [(1, 8)] ∧ ((half 19999).crg 1).level = 0 ∧ ((half 19999).crg 1).acc = some cacc ∧ ((half 19999).crg 1).parts = []
        ∧ ((half 19999).crg 1).parent = none ∧ ((half 19999).crg 1).busy = true ∧ ((half 19999).crg 1).prog = none
        ∧ ((half 19999).crg 1).sinces.getD 0 none = some 0 ∧ (half 19999).now < 0 + (half 19999).courier.budget.toNat
        ∧ 0 + (half 20000).courier.budget.toNat ≤ (half 20000).now ∧ asleep (half 19999) ∧ asleep (half 20000))
      ∧ (let d := cg fun c => { c with cseq := 5 }; cr0.cseq = (d.crg 1).cseq ∧ (d.crg 1).children = [] ∧ (d.crg 1).prog = none ∧ (d.crg 1).mine = none) := by
  try dsimp only
  and_intros <;> decide

/-! Control traffic and the twin -/

def c0 : Ctrl := { src := 8, group := 3, jseq := 5, seq := 9, chunk := 2, rank := 1 }

/-- Every membership taken; every Courier group bound. -/
def full : Part := { withCtx 10 none with groups := (List.range 64).map fun i => (i + 10, { g0 with slot := i, rank := some 0 }) }
def noCr : Part := { withCtx 10 none with courier := { (withCtx 10 none).courier with groups := (List.range 16).map fun i => (i, { CrGroup.reset with bound := true }) } }
set_option maxRecDepth 200000 in
theorem test_wit_ControlOrders_full : full.membershipsFull = true ∧ ∀ i, i < 16 → (noCr.crg i).bound = true := by decide

/-- Newer and older orders, each replay state, the queue at 511 and 512, the manager's silence at its last nanosecond and its end. -/
theorem test_wit_ControlOrders :
    let gm : Group := { g0 with jseqLast := 1, reportAt := some 0, seqSkips := [(1, 9), (2, 8)] }
    let x (t : Nat) (y : Option Ctx) : Part := let p := withCtx t y; { p with groups := [(3, gm)], mb := { p.mb with noteBase := 64, noteSize := 4 }, twin := { p.twin with st := 1, winAt := 5 } }
    let prep := ch (fun k => { k with replay := .prepped, contrib := some [rsu] }) 2
    let arm := ch (fun k => { k with replay := .armed, contrib := some [rsu] }) 0
    let mine (y : Ctx) : Prop := (x 10 (some y)).ctxs = [(5, y)] ∧ y.opening = false ∧ Tb.group y.blk = c0.group.toNat ∧ Tb.seq y.blk = c0.seq.toNat ∧ y.role = .member
    let down (n : Nat) : Part := { p0 with mb := { p0.mb with ctlq := List.replicate n (CtlMsg.mk' 0 1 c0 0) } }
    let lasts (c : Ctrl) : Bool := decide (c.seq = 0 ∧ c.chunk = 0)
    let far : GroupImage := { im with members := [⟨8, 1, 0, false⟩, ⟨12, 1, 0, false⟩] }
    let joining (t : Nat) : Part := let p := withCtx t none; { p with groups := [], pwr := { p.pwr with bootStep := 10, joins := [(3, 8, 0, 5)] } }
    let none2 (t : Nat) : Part := { withCtx t none with groups := [] }
    ((down 511).Calm ∧ (down 511).mb.runs 0 = false ∧ (down 511).mb.ctlq.length < 512 ∧ 512 ≤ (down 512).mb.ctlq.length ∧ (down 512).mb.qlostC.toNat < 65535)
      ∧ ((x 10 (some (ctx0 b0))).Calm ∧ (x 10 (some (ctx0 b0))).NoFence ∧ (x 10 none).mb.runs 0 = true ∧ (x 10 none).group c0.group.toNat = some gm ∧ gm.rank = some 0
        ∧ (x 10 none).gh.twinValid = false ∧ (x 10 none).twinCtxs = [] ∧ (x 10 none).gh.outMsgs = [] ∧ (∀ k < 16, ((x 10 none).crg k).group ≠ some c0.group)
        ∧ (x 10 none).courier.groups = [])
      ∧ (gm.manager = false ∧ (∀ t0, gm.reportAt = some t0 → (x 999999 none).now < t0 + 1000000) ∧ lasts c0 = false ∧ lasts { c0 with seq := 0 } = false
        ∧ lasts { c0 with seq := 0, chunk := 0 } = true ∧ (x 10 none).twin.splitNow = false)
      ∧ ((none2 10).Calm ∧ (none2 10).NoFence ∧ (none2 10).mb.runs 0 = true ∧ (none2 10).group c0.group.toNat = none ∧ (none2 10).membershipsFull = false
        ∧ (none2 10).freeSlot = some 0 ∧ far.group = c0.group ∧ (∀ j ∈ (none2 10).pwr.joins, (none2 10).pwr.bootStep = 10 → j.1 ≠ c0.group) ∧ (none2 10).Reaches c0.src 0
        ∧ (none2 10).twin.imageIn = false ∧ (none2 10).crOf c0.group = []
        ∧ (List.range 16).find? (fun i => !((none2 10).crg i).bound && ((none2 10).crg i).group.isNone) = some 0
        ∧ full.group c0.group.toNat = none)
      ∧ ((joining 5).Calm ∧ (joining 5).NoFence ∧ (joining 5).mb.runs 0 = true ∧ (joining 5).pwr.joins = [(3, 8, 0, 5)] ∧ c0.group = 3 ∧ (joining 5).pwr.bootStep = 10
        ∧ (joining 100000004).now < 5 + 100000000 ∧ 5 + 100000000 ≤ (joining 100000005).now)
      ∧ newerJseq c0.jseq gm.jseqLast = true ∧ newerJseq 1 gm.jseqLast = false ∧ newerJseq 2 gm.jseqLast = true
      ∧ mine (ctx0 b0) ∧ (ctx0 b0).ins = [] ∧ (ctx0 b0).outs = [] ∧ (x 10 (some (ctx0 b0))).Reaches c0.src 0 ∧ (x 10 none).Reaches c0.src 0 ∧ (x 10 none).ctxs = []
      ∧ mine prep ∧ (prep.chunk 2).replay = .prepped ∧ (prep.chunk 2).contrib = some [rsu] ∧ (prep.chunk 2).replay ≠ .armed
      ∧ mine arm ∧ (arm.chunk 0).replay = .armed ∧ (arm.chunk 0).hopDone = false ∧ (arm.chunk 0).contrib = some [rsu] ∧ arm.isStart 0 = true ∧ Tb.rank arm.blk < 4096
      ∧ arm.rackNext gm.img 1 = (1, some 8)
      ∧ (ctx0 b0).owner = some (2, 7, true) ∧ ((x 10 none).seq 2).wait = .none ∧ ((x 10 none).seq 2).event (7#8).toNat = (0, 0)
      ∧ im.group = c0.group ∧ (x 10 none).pwr.joins = [] ∧ crc32c [1] ≠ 0
      ∧ (x 10 none).twin.st = 1#3 ∧ (x 4004 none).now < (x 10 none).twin.winAt + (x 10 none).twin.probeTmo.toNat
      ∧ (x 10 none).twin.winAt + (x 10 none).twin.probeTmo.toNat ≤ (x 4005 none).now ∧ (∀ k ∈ (x 10 none).groups, k.2.unaccepted = [])
      ∧ gm.reportAt = some 0 ∧ 0 + 1000000 ≤ (x 1000000 none).now ∧ (x 999999 none).now < 0 + 1000000 ∧ (x 10 none).mb.runs 1 = true ∧ (x 10 none).mb.noteBase ≠ 0
      ∧ ((x 10 none).mb.noteWr - (x 10 none).mb.noteRd).toNat + 3 ≤ 2 ^ fld (x 10 none).mb.noteSize 0 5 := by
  try dsimp only
  and_intros <;> first | decide | exact answers_far _ _ rfl rfl rfl (by decide)

/-- Causes at their edges, a SHADOW piece of a role epoch and one of fabric credits. -/
theorem test_wit_ControlOrders_edges :
    (1 ≤ (1#8).toNat ∧ (7#8).toNat ≤ 7 ∧ 7 < (8#8).toNat ∧ 3 < (4#8).toNat) ∧ (withCtx 10 none).Calm ∧ (withCtx 10 none).NoFence ∧ g0.ofTwin = false
      ∧ (0x24110#32).toNat = 0x24100 + 2 * (8#17).toNat ∧ 0x23100 < (0x23100#32).toNat + [1].length ∧ (0x23100#32).toNat + [1].length ≤ 0x24100 := by
  and_intros <;> decide

/-- A table of identities that no package of number 0 has: this instance is no member. -/
theorem rankOf_far (p : Part) (g : GroupImage) (h1 : p.gh.package = 0) (h2 : p.gh.side = false) (h : ∀ r, r < g.members.length → 4 ≤ (g.member r).ident.toNat) :
    g.rankOf p.ownId = none := by
  have hd : Config.die.toNat < 4 := Config.die.isLt
  rw [GroupImage.rankOf, List.find?_eq_none]
  intro r hr e
  have e' : (g.member r).ident = p.ownId := of_decide_eq_true e
  have := h r (List.mem_range.mp hr)
  rw [e'] at this
  simp [Part.ownId, h1, h2, b2n] at this
  omega

theorem twin_ne (i : FabId) : i ≠ i ^^^ 1#17 := by
  intro h
  have := congrArg (fun v : FabId => v.getLsbD 0) h
  simp at this
theorem rankOf_second (g : GroupImage) (a b : FabId) (w : W16) (k : BitVec 12) (d : Bool) (h : a ≠ b) (hm : g.members = [⟨a, w, k, d⟩, ⟨b, w, k, d⟩]) : g.rankOf b = some 1 := by
  simp [GroupImage.rankOf, GroupImage.member, hm, show List.range 2 = [0, 1] from rfl, h]

/-- A spare that the table does not name; a split pair whose two ranks a SKIP reports. -/
theorem test_wit_ControlOrders_pair :
    ({ im with members := [⟨8, 1, 0, false⟩, ⟨12, 1, 0, false⟩] } : GroupImage).rankOf p0.ownId = none
    ∧ (let img : GroupImage := { im with members := [⟨p0.ownId, 1, 0, false⟩, ⟨p0.twinId, 1, 0, false⟩] }
       let g : Group := { g0 with img := img, rank := some 0 }
       let x : Part := let p := withCtx 10 none; { p with groups := [(3, g)], twin := { p.twin with st := 4 }, gh := { p.gh with lgEn := 1 } }
       x.twin.splitNow = true ∧ x.twin.lostTold = false ∧ (g.img.member 1).ident = x.twinId ∧ x.ctxs = [] ∧ x.groups = [(3, g)] ∧ g.ofTwin = false
         ∧ x.twin.mirror.members = [] ∧ x.Reaches c0.src 0
         ∧ (∀ k, k < 8 → k ≠ 0 → x.qualifies 0xFF (fld (tabGet x.gh.routes (idRoute c0.src) 0) 0 8) k = false) ∧ g.img.rankOf x.twinId = some 1) := by
  refine ⟨rankOf_far p0 _ rfl rfl (by decide), rfl, rfl, rfl, rfl, rfl, rfl, rfl, ⟨answers_far _ _ rfl rfl rfl (by decide), by decide⟩,
    by decide, rankOf_second _ _ _ _ _ _ (twin_ne _) rfl⟩

/-- Each phase of a replay with the last answer and with one before it, the windows at their edges, and the floor kept and crossed. -/
theorem test_wit_ManagerOrders :
    let rp : MgrReplay := { phase := 0, seq := 9, jseq := 1, prepAcks := [0, 2, 3, 4], armAcks := [], lastAck := 0, since := 0 }
    let gm : Group := { g0 with manager := true, mgrId := 0, nextJseq := 4, img := { im with floor := 52429 } }
    let x (g : Group) (t : Nat) : Part := let p := withCtx t none; { p with groups := [(3, g)] }
    let under (g : Group) (d : List Nat) : Bool := ({ g with dropped := d } : Group).below
    let prep := { gm with replays := [(2, rp)] }
    let part := { gm with replays := [(2, { rp with prepAcks := [0] })] }
    let arm := { gm with replays := [(2, { rp with phase := 2, armAcks := [0, 2, 3, 4] })] }
    let quiet := { gm with replays := [(2, { rp with phase := 1 })] }
    let fin := { gm with completeSeq := some 9, delivered := [0, 2, 3, 4] }
    let fin1 := { gm with completeSeq := some 9, delivered := [0] }
    let ok (g : Group) : Prop := (x g 10).Calm ∧ (x g 10).Manages c0.group.toNat g
    ok gm ∧ ok prep ∧ ok part ∧ ok arm ∧ ok quiet ∧ ok fin ∧ ok fin1 ∧ tabFind gm.replays c0.chunk.toNat = none ∧ tabFind prep.replays c0.chunk.toNat = some rp
      ∧ prep.replays = [(c0.chunk.toNat, rp)] ∧ rp.phase = 0 ∧ prep.allIn (c0.rank.toNat :: rp.prepAcks) = true ∧ part.allIn (c0.rank.toNat :: [0]) = false
      ∧ arm.allIn (c0.rank.toNat :: [0, 2, 3, 4]) = true ∧ arm.completeSeq = none
      ∧ tabFind quiet.replays c0.chunk.toNat = some { rp with phase := 1 } ∧ rp.lastAck + 20000 ≤ (x quiet 20000).now ∧ (x quiet 19999).now < rp.lastAck + 20000
      ∧ fin.replays = [] ∧ fin.completeSeq = some c0.seq ∧ fin.allIn (c0.rank.toNat :: fin.delivered) = true ∧ fin1.allIn (c0.rank.toNat :: fin1.delivered) = false
      ∧ gm.replays = [] ∧ gm.completeSeq = none ∧ gm.img.spares = [] ∧ gm.recovery = [] ∧ c0.rank.toNat ∉ gm.dropped
      ∧ under { gm with img := { im with floor := 0 } } [] = under { gm with img := { im with floor := 0 } } [1] ∧ under gm [] = false ∧ under gm ([] ++ [1]) = true
      ∧ (part.img.live.filter ({ rp with prepAcks := [0, 2, 3, 4] } : MgrReplay).owed = [1] ∧ arm.img.live.filter ({ rp with phase := 2, armAcks := [0, 2, 3, 4] } : MgrReplay).owed = [1]
        ∧ gm.recovery = [] ∧ gm.img.pairOf 1 = none ∧ (x prep 199999).now < rp.since + 200000 ∧ rp.since + 200000 ≤ (x prep 200000).now ∧ gm.gone c0.rank.toNat = false
        ∧ (c0.rank.toNat, c0.seq) ∉ gm.seqSkips ∧ (1, c0.seq) ∈ ({ gm with seqSkips := [(1, 9)] } : Group).seqSkips)
      ∧ c0.rank.toNat ∉ [0] ∧ c0.rank.toNat ∈ part.img.live ∧ rp.since + 200000 ≤ (x part 200000).now ∧ (x part 199999).now < rp.since + 200000
      ∧ part.img.live.all (fun i => i = c0.rank.toNat || [0].contains i) = false ∧ c0.rank.toNat ∈ ({ gm with dropped := [1] } : Group).dropped
      ∧ ({ gm with drawing := [(3, 8)] } : Group).drawing = [(3, c0.src)] ∧ gm.drawing = [] ∧ gm.img.rankOf c0.src = some 1 ∧ (x gm 10).Reaches c0.src 0 := by
  try dsimp only
  and_intros <;> first | decide | exact answers_far _ _ rfl rfl rfl (by decide)

/-- A replay that serves the pass being delivered; a second loss, of the rank whose twin is in recovery. -/
theorem test_wit_ManagerOrders_pairs :
    let rp : MgrReplay := { phase := 0, seq := 9, jseq := 1, prepAcks := [0], armAcks := [], lastAck := 0, since := 0 }
    let gm : Group := { g0 with manager := true, mgrId := 0, nextJseq := 4, img := { im with floor := 52429 } }
    let part := { gm with replays := [(2, rp)], completeSeq := some 9, delivered := [1] }
    let twins := { gm with img := { im with members := im.members.set 0 ⟨9, 1, 0, false⟩ }, recovery := [(0, 2)] }
    let x (g : Group) : Part := let p := withCtx 10 none; { p with groups := [(3, g)] }
    let ok (g : Group) : Prop := (x g).Calm ∧ (x g).Manages c0.group.toNat g
    (1 ≤ (7#8).toNat ∧ (7#8).toNat ≤ 7) ∧ ok part ∧ part.completeSeq = some rp.seq ∧ gm.completeSeq = none
      ∧ (ok twins ∧ twins.img.pairOf c0.rank.toNat = some 0 ∧ (∃ q ∈ twins.recovery, q.1 = 0) ∧ twins.img.deadRank 0 = false ∧ (∀ q ∈ twins.recovery, q.1 ≠ c0.rank.toNat)
        ∧ twins.replays = [] ∧ twins.completeSeq = none ∧ twins.img.spares = [] ∧ twins.drawing = [] ∧ twins.img.deadRank c0.rank.toNat = false ∧ c0.rank.toNat ∉ twins.dropped
        ∧ twins.gone 0 = false ∧ twins.gone c0.rank.toNat = false)
      ∧ gm.img.pairOf c0.rank.toNat = none ∧ gm.img.deadRank c0.rank.toNat = false := by
  try dsimp only
  and_intros <;> decide

theorem test_wit_TwinWords :
    let je : JEntry := ⟨1, 0x30, false, 0, 1, 2, BitVec.ofNat 112 (8 * 2 ^ 16)⟩
    let x (f : Twin → Twin) (t : Nat := 10) : Part := let p := withCtx t (some (ctx0 b0)); { p with twin := f { p.twin with rxSeq := 5, txSeq := 4, txWords := [(3, .nothing), (2, .ownEpoch 1)] } }
    let gm : Group := { g0 with manager := true, mgrId := (x id).ownId, nextJseq := 4, journal := [je], unaccepted := [1] }
    let y : Part := { x id with groups := [(3, gm)] }
    let plain (it : MirrorItem) : Prop := (match it with | .journal _ _ => false | .journalAccepted _ _ => false | _ => true) = true
    ((x id).twin.txWords.filter fun k => decide ((k.1 - 3#16).toNat < 32768)) = [(3, .nothing)]
      ∧ ((x id).twin.txWords.filter fun k => decide ((k.1 - 4#16).toNat < 32768)) = [] ∧ (x id).Calm ∧ (5#16) = (x id).twin.rxSeq ∧ (4#16) ≠ (x id).twin.rxSeq ∧ (x id).twin.st = 0#3 ∧ plain (.ownEpoch 7) ∧ (x id).Mirrors
      ∧ (y.Calm ∧ y.group (3#16).toNat = some gm ∧ gm.unaccepted = [1] ∧ gm.journal.find? (fun e => decide (e.jseq = 1)) = some je ∧ gm.targets je = [8] ∧ gm.mgrId = y.ownId
        ∧ y.Reaches 8 0)
      ∧ (x fun w => { w with st := 4 }).twin.st = 4#3 ∧ (x fun w => { w with st := 5 }).twin.st = 5#3 ∧ (x id).twin.st ≠ 5#3
      ∧ (x id 1000).twin.lastTx + 1000 ≤ (x id 1000).now ∧ (x id 999).now < (x id 999).twin.lastTx + 1000
      ∧ (x fun w => { w with snapBusy := true }).twin.snapBusy = true ∧ (x id).twin.snapBusy = false ∧ ((x id).noc 8).checkpointing = false
      ∧ (((x id).onNoc 8 fun n => { n with waiting := [⟨true, 64, 64, List.replicate 64 0, .snapshot, []⟩] }).noc 8).checkpointing = true
      ∧ (x id).now < (x id).twin.lastRx + 4000 ∧ (x id 4000).twin.lastRx + 4000 ≤ (x id 4000).now
      ∧ (x fun w => { w with st := 3 }).twin.st ≠ 0#3 ∧ (x fun w => { w with st := 3 }).twin.st ≠ 4#3 ∧ (x fun w => { w with st := 3 }).twin.st ≠ 5#3 := by
  try dsimp only
  and_intros <;> first | decide | (unfold Part.ownId; rfl) | exact answers_far _ _ rfl rfl rfl (by decide)

/-- Each window of R58, R264 and R265 at its end and before it, an active lane group and none. -/
theorem test_wit_TwinLoss :
    let lgs (a b : Bool) : Tab LaneGroup := [(1, { LaneGroup.reset with active := a, claimAck := b }), (2, { LaneGroup.reset with active := a, claimAck := true })]
    let xfb : BitVec 512 := 0
    let x (s : BitVec 3) (t : Nat) (a b : Bool) (f : Twin → Twin := id) : Part :=
      tm t { p0 with gh := { p0.gh with lgs := lgs a b, routes := [(0, 0x1FF)] },
                     twin := f { p0.twin with st := s, winAt := 5, lastRx := 3, mirror := { Mirror.reset with ctxs := [(7, b0)], epoch := 9, envs := [(2, ([(1, 2)], none))], xfers := [(4, (xfb, 1))] } } }
    let lost (x : Part) : Prop := (x.twin.st = 0#3 ∨ x.twin.st = 5#3) ∧ x.twin.lastRx + 4000 ≤ x.now
    let silent (x : Part) : Prop := x.twin.st = 1#3 ∧ x.twin.lostTold = false ∧ x.twin.winAt + x.twin.probeTmo.toNat ≤ x.now
    let isOver (x : Part) : Prop := x.twin.st = 2#3 ∧ x.twin.winAt + x.twin.claimTmo.toNat ≤ x.now
    (x 0 4003 false false).Calm ∧ (x 0 4003 false false).groups = [] ∧ (x 0 4003 false false).twin.mirror.members = [] ∧ (x 0 4003 false false).twin.mirror.managed = []
      ∧ lost (x 0 4003 false false) ∧ ¬ lost (x 0 4002 false false) ∧ lost (x 5 4003 false false)
      ∧ silent (x 1 4005 true false) ∧ ¬ silent (x 1 4004 true false) ∧ (x 1 4005 true false fun w => { w with takeoverEn := false }).twin.takeoverEn = false
      ∧ silent (x 1 4005 true false fun w => { w with unsynced := true }) ∧ (x 1 4005 true false).twin.unsynced = false
      ∧ (x 1 4005 true false).twin.takeoverEn = true ∧ (∀ g, g < 8 → ((x 1 4005 true false).lg g).active = true → ((x 1 4005 true false).lg g).pcsCr = 0)
      ∧ (∃ g, g < 8 ∧ ((x 1 4005 true false).lg g).active = true ∧ ((x 1 4005 true false).lg g).down = false)
      ∧ isOver (x 2 4005 true false) ∧ ¬ isOver (x 2 4004 true false)
      ∧ (∀ g, g < 8 → (x 2 4005 true false).lg g
          = { LaneGroup.reset with active := ((x 2 4005 true false).lg g).active, claimAck := ((x 2 4005 true false).lg g).claimAck })
      ∧ (x 2 4005 true false).twin.mirror.ctxs = [(7, b0)] ∧ .context (Fin.ofNat 64 7) ∉ (x 2 4005 true false).twin.mirror.bad
      ∧ (x 2 4005 true false).twin.mirror.envs = [(2, ([(1, 2)], none))] ∧ .envelope (Fin.ofNat 4096 2) ∉ (x 2 4005 true false).twin.mirror.bad
      ∧ ((x 2 4005 true false).env 2).ring = [] ∧ ((x 2 4005 true false).env 2).acc = none
      ∧ tabFind (x 2 4005 true false).twin.mirror.xfers 4 = some (xfb, 1) := by
  try dsimp only
  and_intros <;> decide

/-- The PROBE goes to the twin, whatever the die number. -/
theorem test_wit_TwinLoss_probe : ∃ p : Part, p.Calm ∧ p.groups = [] ∧ p.twin.st = 0#3 ∧ p.twin.lastRx + 4000 ≤ p.now ∧ p.Reaches p.twinId 0 := by
  have hd : Config.die.toNat < 4 := Config.die.isLt
  refine ⟨tm 4000 { p0 with gh := { p0.gh with routes := [(0, 0x1FF)] } }, by decide, rfl, rfl, by decide, ?_⟩
  have e : (tm 4000 { p0 with gh := { p0.gh with routes := [(0, 0x1FF)] } }).ownId = BitVec.ofNat 17 Config.die.toNat := by
    simp [Part.ownId, tm, p0, Part.reset, Gh.reset, b2n]
  rw [Part.Reaches, Part.answers, Part.twinId, e]
  generalize Config.die.toNat = d at hd
  have : d = 0 ∨ d = 1 ∨ d = 2 ∨ d = 3 := by omega
  rcases this with rfl | rfl | rfl | rfl <;> decide

/-! Firmware -/

def img1 : Image := ⟨1, 1, 1, 1, 77, []⟩
def mbp (f : Mb → Mb) (p : Part := p0) : Part := { p with mb := f { p.mb with keeperUp := 15, st := 3, args := [0, 0, 0, 0, 0, 64, 0, 0, 0, 0, 0, 0] } }
/-- An image container of R297 with one component of 8 bytes, for a part in a debug package (fuse 1,668). -/
def cbody : List Byte :=
  toBytes 4 0x31505A42 ++ toBytes 2 1 ++ toBytes 2 5 ++ toBytes 4 600 ++ [0, 1] ++ toBytes 2 7 ++ List.replicate (0x40 - 16) 0 ++ toBytes 4 0 ++ toBytes 4 512
    ++ toBytes 4 8 ++ toBytes 4 0 ++ toBytes 4 0 ++ List.replicate (600 - 4 - 0x54) 3
def cont : List Byte := cbody.take 596 ++ toBytes 4 (crc32c (cbody.take 596)).toNat

set_option maxRecDepth 200000 in
theorem test_verify_accepts : verify (setBitAt 0 1668) cont = (0, 0) := by decide
theorem test_verify_refuses : (verify (setBitAt 0 1668) [1]).1 = 5 := by decide

theorem overLimit_false (p : Part) (img : GroupImage) (m c : Bool) (h1 : img.members.length ≤ 65535) (h2 : img.weight ≤ 65535) (h3 : p.membershipsFull = false)
    (h4 : p.managedFull = false) (h5 : p.freeSlot.isNone = false) : p.overLimit img m c = false := by
  simp only [Part.overLimit, h3, h4, h5, Bool.and_false, Bool.or_false, Bool.or_eq_false_iff, Bool.and_eq_false_iff, decide_eq_false_iff_not]
  refine ⟨?_, .inr (by omega)⟩
  split <;> omega
theorem overLimit_true (p : Part) (img : GroupImage) (m c : Bool) (h : p.freeSlot.isNone = true) : p.overLimit img m c = true := by simp [Part.overLimit, h]
/-- Every slot of K0's table taken. -/
def slotsTaken : Part := { mbp id with groups := (List.range 64).map fun i => (i + 10, { g0 with slot := i }) }

set_option maxRecDepth 200000 in
/-- STATE, BUSY, the Keepers, the argument ranges of each command at their edges. -/
theorem test_wit_MailboxCommands :
    let idle (m : Mb) : Prop := m.busy = false ∧ m.doorbell = none ∧ m.keeperUp = 0xF ∧ m.halted = 0
    let runs (m : Mb) : Prop := idle m ∧ m.st = 3#4
    let x := mbp id
    let gp : Part := { x with groups := [(3, { g0 with manager := true }), (1, g0)] }
    let w : Part := mbp fun m => { m with st := 1 }
    let ld (c : List Byte) : MbRun := ⟨1, 7, 0, [], some ⟨some c, 0, 40⟩⟩
    let rd (d : List Byte) (u : NocUse) (p : Part) : Part := p.onNoc 8 fun n => { n with openReqs := [(5, (⟨false, 64, 128, d, u, []⟩, 128))] }
    let asks : Part := mbp fun m => { m with st := 2, busy := true, run := some ⟨1, 7, 0, [], some ⟨none, 0, 40⟩⟩ }
    let w0 : Part := { (mbp fun m => { m with st := 2, busy := true, run := some (ld cont) }) with sensed := setBitAt 0 1668 }
    let wb : Part := mbp fun m => { m with st := 2, busy := true, run := some (ld [1]) }
    let sh : Part := { x with sensed := setBitAt 0 1668 }
    x.Calm ∧ x.shut = false ∧ runs x.mb ∧ (mbp fun m => { m with busy := true }).mb.busy = true ∧ (mbp fun m => { m with busy := true }).mb.doorbell ≠ some (0x30, 7)
      ∧ idle (mbp fun m => { m with st := 5 }).mb ∧ (mbp fun m => { m with st := 5 }).mb.st = 5#4
      ∧ (mbp fun m => { m with keeperUp := 0 }).mb.busy = false ∧ (mbp fun m => { m with keeperUp := 0 }).mb.keeperUp = 0 ∧ mbKnown 0 = false ∧ x.mb.st ≠ 0#4
      ∧ w.mb.busy = false ∧ w.mb.doorbell = none ∧ w.mb.st = 1#4 ∧ bitOf w.mb.halted 0 = false
      ∧ bitOf ({ w.mb with halted := 1 } : Mb).halted 0 = true ∧ 40 ≤ (⟨0, 40⟩ : WorkArea).len.toNat ∧ ¬ 40 ≤ (⟨0, 39⟩ : WorkArea).len.toNat ∧ (2097152#32).toNat ≤ 2097152
      ∧ ¬ (2097153#32).toNat ≤ 2097152 ∧ x.mb.staged = false ∧ ({ x.mb with keeperBank := [false, false, false, true] } : Mb).staged = true
      ∧ (x.noc 8).waiting = [] ∧ (x.noc 8).openReqs = [] ∧ (x.noc 8).merging = false ∧ 1 ≤ (x.noc 8).reqCr
      ∧ (∀ u ∈ [NocUse.image 3 60, .config 3], let y := rd (List.replicate 64 0) u asks
          (y.noc 8).waiting = [] ∧ (y.noc 8).openReqs = [((5#8).toNat, (⟨false, 64, 128, List.replicate 64 0, u, []⟩, 128))]
            ∧ (List.replicate 64 (0 : Byte)).length < 128 ∧ 128 ≤ (List.replicate 64 (0 : Byte)).length + (List.replicate 64 (0 : Byte)).length)
      ∧ asks.mb.run = some ⟨1, 7, 0, [], some ⟨none, 0, 40⟩⟩
      ∧ wb.Calm ∧ wb.mb.run = some (ld [1]) ∧ (ld [1]).tag = 7 ∧ (verify wb.sensed [1]).1 ≠ 0
      ∧ w0.Calm ∧ w0.mb.run = some (ld cont) ∧ (ld cont).load = some ⟨some cont, 0, 40⟩ ∧ { w0.mb with emerg := true }.emerg = true ∧ w0.mb.dropsLate = false
      ∧ w0.mb.halted = 0 ∧ w0.mb.emerg = false ∧ w0.mb.harbourq = [] ∧ w0.groups = [] ∧ w0.mb.ctlq = [] ∧ w0.mb.k1q = [] ∧ w0.mb.traceq = [] ∧ w0.mb.harbourLate = none ∧ w0.mb.hbLatched = false
      ∧ w0.gh.roleLate = [] ∧ (mbp fun m => { m with run := some (ld cont) }).mb.st ≠ 2#4 ∧ w0.sensed = setBitAt 0 1668
      ∧ runs sh.mb
      ∧ (15 < 16 ∧ (mbp fun m => { m with bankA := some img1, bankB := some { img1 with rlayout := 2 }, keeperBank := [true, true, true, true] }).mb.layoutDiffers = true)
      ∧ (let y := mbp fun m => { m with keeperBank := [true, true, true, true], bankA := some img1, bankB := some img1 }
         runs y.mb ∧ y.mb.layoutDiffers = false ∧ y.mb.emerg = false ∧ y.mb.keeperBank = List.replicate 4 (!y.mb.target) ∧ y.mb.restarting = [])
      ∧ x.mb.krst.length = 4 ∧ (x.mb.krst.getD 3 0).toNat < 255
      ∧ x.group im.group.toNat = none ∧ im.members ≠ [] ∧ x.overLimit im true false = false ∧ x.freeSlot.isSome = true ∧ gp.holdsLive im.group.toNat = true ∧ runs gp.mb
      ∧ x.holdsLive im.group.toNat = false ∧ runs slotsTaken.mb ∧ slotsTaken.overLimit im true false = true
      ∧ gp.group 3 = some { g0 with manager := true } ∧ gp.group 2 = none ∧ ([] : List FabId).length ≤ 256 ∧ gp.group 1 = some g0 ∧ g0.manager = false
      ∧ 65535 + ([5] : List W64).length ≤ 65536 ∧ 65536 < 65535 + ([5, 6] : List W64).length
      ∧ idle (mbp fun m => { m with st := 4, imgHash := 5 }).mb ∧ (6 : BitVec 384) ≠ (mbp fun m => { m with st := 4, imgHash := 5 }).mb.imgHash
      ∧ (tm 999999999 (mbp fun m => { m with st := 4 })).now < (mbp fun m => { m with st := 4 }).mb.drainAt + 1000000000
      ∧ (mbp fun m => { m with parked := true }).mb.parked = true ∧ (∀ q, q < 9 → (x.seq q).wait = .none)
      ∧ (let y := mbp fun m => { m with run := some ⟨3, 7, 0, [5], none⟩, restarting := [(2, (1, false))] }
         y.Calm ∧ y.mb.run = some ⟨3, 7, 0, [5], none⟩ ∧ y.mb.toSwitch = [] ∧ ∀ k ∈ y.mb.restarting, k.2.2 = false) ∧ x.mb.run = none
      ∧ (mbp fun m => { m with toSwitch := [1], actAsked := true }).mb.toSwitch ≠ [] ∧ x.mb.actAsked = false := by
  try dsimp only
  and_intros <;> first | decide | exact overLimit_false _ _ _ _ (by decide) (by decide) (by decide) (by decide) (by decide) | exact overLimit_true _ _ _ _ (by decide)

/-- The 200 ms, 1 s and 30 s windows at their edges; the first, second and third restart in a window. -/
theorem test_wit_Keepers :
    let x (f : Mb → Mb) (t : Nat) : Part := tm t (mbp fun m => f { m with noteBase := 64, noteSize := 4 })
    let hb (t : Nat) := x (fun m => { m with hbArmed := true }) t
    let expired (p : Part) : Prop := p.mb.hbArmed = true ∧ p.mb.hbLast + 200000000 ≤ p.now
    let pk := x (fun m => { m with hbArmed := true, parked := true }) 200000000
    let dr (t : Nat) := x (fun m => { m with st := 4 }) t
    let win (n t : Nat) := x (fun m => { m with rstWin := [(2, (5, n))] }) t
    let re := x (fun m => { m with restarting := [(2, (1, false))], keeperUp := 11 }) 10
    let sw := x (fun m => { m with restarting := [(2, (3, true))], keeperUp := 11, toSwitch := [1, 0], target := true }) 10
    let fin := x (fun m => { m with restarting := [(2, (3, true))], keeperUp := 11, target := true, keeperBank := [true, true, false, true], bankB := some img1 }) 10
    let de (k : Bool) (t : Nat) := x (fun m => { m with deferred := [⟨3, k, !k, 0⟩], actPending := true, restarting := [(2, (1, false))] }) t
    let noteOk (m : Mb) : Prop := m.noteBase ≠ 0 ∧ (m.noteWr - m.noteRd).toNat + 1 ≤ 2 ^ fld m.noteSize 0 5
    (hb 0).Calm ∧ (hb 0).mb.krst.length = 4 ∧ (hb 0).mb.emerg = false ∧ expired (hb 200000000) ∧ ¬ expired (hb 199999999) ∧ (hb 0).mb.st = 3#4 ∧ (hb 0).mb.parked = false
      ∧ (hb 0).mb.keeperUp = 0xF ∧ (hb 0).mb.halted = 0
      ∧ (pk.Calm ∧ expired pk ∧ pk.mb.st = 3#4 ∧ pk.mb.parked = true ∧ pk.groups = [] ∧ pk.ctxs = [] ∧ noteOk pk.mb)
      ∧ (expired (x (fun m => { m with hbArmed := true, keeperUp := 7 }) 200000000) ∧ bitOf (x (fun m => { m with hbArmed := true, keeperUp := 7 }) 0).mb.keeperUp 3 = false)
      ∧ (expired (x (fun m => { m with hbArmed := true, st := 4 }) 200000000) ∧ (dr 0).mb.st ≠ 3#4 ∧ (x id 0).mb.hbArmed = false)
      ∧ ((dr 0).mb.st = 4#4 ∧ (dr 1000000000).mb.drainAt + 1000000000 ≤ (dr 1000000000).now ∧ (dr 999999999).now < (dr 0).mb.drainAt + 1000000000 ∧ (dr 0).mb.harbourLate = none
        ∧ (dr 0).groups = [] ∧ (dr 0).ctxs = [] ∧ noteOk (dr 0).mb)
      ∧ (bitOf (x id 0).mb.keeperUp 2 = true ∧ tabFind (x id 0).mb.rstWin 2 = none)
      ∧ (tabFind (win 1 0).mb.rstWin 2 = some (5, 1) ∧ 5 + 1000000000 ≤ (win 1 1000000005).now ∧ (win 1 1000000004).now < 5 + 1000000000
        ∧ tabFind (win 2 0).mb.rstWin 2 = some (5, 2) ∧ bitOf (win 2 0).mb.keeperUp 2 = true)
      ∧ bitOf re.mb.keeperUp 2 = false
      ∧ (tabFind re.mb.restarting 2 = some (1, false) ∧ re.mb.isDeferred 2 = false ∧ re.mb.harbourq = [] ∧ re.mb.ctlq = [] ∧ re.mb.k1q = [] ∧ re.mb.traceq = [] ∧ re.mb.hbLatched = false
        ∧ re.gh.roleLate = [] ∧ re.mb.halted = 0 ∧ re.mb.harbourLate = none ∧ re.mb.dropsLate = false ∧ re.pwr.bootStep ≠ 9 ∧ ∀ g ∈ re.groups, g.2.unsent = [])
      ∧ (sw.Calm ∧ sw.mb.restarting = [(2, (3, true))] ∧ sw.mb.toSwitch = 1 :: [0] ∧ sw.mb.isDeferred 2 = false ∧ sw.mb.halted = 0 ∧ sw.mb.harbourLate = none)
      ∧ (fin.Calm ∧ fin.mb.restarting = [(2, (3, true))] ∧ fin.mb.toSwitch = [] ∧ bitOf fin.mb.keeperUp 1 = true ∧ noteOk fin.mb
        ∧ fin.mb.keeperBank.set 2 fin.mb.target = List.replicate 4 fin.mb.target ∧ fin.mb.image fin.mb.target = some img1)
      ∧ tabFind (x id 0).mb.restarting 2 = none ∧ (x (fun m => { m with deferred := [⟨4, false, false, 0⟩] }) 0).mb.isDeferred 2 = true
      ∧ ((de false 0).Calm ∧ (de false 0).mb.deferred = ⟨3, false, true, 0⟩ :: [] ∧ 0 + 30000000000 ≤ (de false 30000000000).now ∧ (de true 29999999999).now < 0 + 30000000000
        ∧ (de true 0).mb.deferred = [⟨3, true, false, 0⟩])
      ∧ (let two := x (fun m => { m with deferred := [⟨3, false, true, 0⟩, ⟨4, false, false, 1⟩], actPending := true }) 30000000000
         two.Calm ∧ two.mb.deferred = ⟨3, false, true, 0⟩ :: [⟨4, false, false, 1⟩] ∧ two.now < 1 + 30000000000) := by
  try dsimp only
  and_intros <;> decide

/-! Power, time, resets, the test port -/

/-- Steps up and down, the release window, each band of the time-base sample at its edges, domains idle and awake. -/
theorem test_wit_PowerAndTime :
    let x (t : Nat) (f : Pwr → Pwr := id) : Part := tm t { p0 with pwr := f p0.pwr }
    let one (p : Part) (v : PwrIn) : Prop := p.pwr.inputs.changes v = [v] ∧ p.pwr.release = none ∧ p.mb.restarting = [] ∧ p.mb.toSwitch = [] ∧ p.mb.deferred = []
    let em : PwrIn := ⟨false, false, true, 0⟩
    let hi := x 0 fun p => { p with inputs := em, stepEff := em.step }
    let rel (t : Nat) := x t fun p => { p with release := some 5, stepEff := 5 }
    let T := 5000
    let sp (n : Nat) : W64 := BitVec.ofNat 64 n
    (x T).Calm ∧ one p0 em ∧ p0.pwr.inputs.step < em.step ∧ one hi ⟨false, false, false, 0⟩ ∧ (⟨false, false, false, 0⟩ : PwrIn).step < hi.pwr.inputs.step ∧ p0.pwr.release = none
      ∧ ((rel 0).pwr.release = some 5 ∧ 5 + (rel 0).pwr.releaseTmo.toNat ≤ (rel 1000005).now ∧ (rel 1000004).now < 5 + (rel 0).pwr.releaseTmo.toNat)
      ∧ (x T).glob.time = T ∧ (x T).glob.tbHold = false ∧ T + 1005 < (sp 6006).toNat ∧ ¬ T + 1005 < (sp 6005).toNat ∧ T + 5 < (sp 6005).toNat ∧ T + 5 < (sp 5006).toNat
      ∧ (sp 5005).toNat = T + 5 ∧ (sp 5004).toNat < T + 5 ∧ T ≤ (sp 4005).toNat + 995 ∧ (sp 4005).toNat < T + 5 ∧ (sp 4004).toNat + 995 < T
      ∧ (sp 4999).toNat < T ∧ { p0 with glob := { p0.glob with tbHold := true } }.glob.tbHold = true ∧ p0.pwr.bootStep = 11 ∧ p0.mb.configBytes = none ∧ p0.mb.halted = 0
      ∧ (x 0 fun p => { p with bootStep := 5 }).pwr.bootStep = 5 ∧ (x 0 id).mb.st = 0 ∧ (x 0 id).triggered .ssu = false ∧ (x 0 id).triggered (.lane 1) = false
      ∧ (Dom.ssu.hold (x 0 id).pwr = some 1000 ∧ tabFind (x 1004 fun p => { p with trigAt := [(Dom.ssu.num, 5)] }).pwr.trigAt Dom.ssu.num = some 5
        ∧ (x 1004 fun p => { p with trigAt := [(Dom.ssu.num, 5)] }).now < 5 + (1000 : W32).toNat)
      ∧ (x 0 fun p => { p with bootStep := 1 }).pwr.bootStep = 1 ∧ (x 0 fun p => { p with bootStep := 2 }).pwr.bootStep = 2
      ∧ ((x 0 fun p => { p with awake := [.ssu, .lane 1] }).onLg 1 fun l => { l with active := true, pcsCr := 8 }).domIdle (.lane 1) = true ∧ (x 0 fun p => { p with awake := [.ssu] }).domIdle .ssu = true
      ∧ p0.pwr.waitQuads = [] ∧ (mbp fun m => { m with busy := true }).domIdle .fwc = false ∧ Dom.ssu ∈ (x 0 fun p => { p with waking := [.ssu] }).pwr.waking ∧ Dom.ssu ∉ p0.pwr.waking := by
  try dsimp only
  and_intros <;> decide

/-- The KEY and what differs from it, each start-up step named, the lane and join windows at their edges, one join and two. -/
theorem test_wit_ResetsAndStartup :
    let x (f : Pwr → Pwr) (t : Nat := 0) : Part := tm t { p0 with pwr := f p0.pwr }
    let ln (t : Nat) := x (fun p => { p with bootStep := 9 }) t
    let jn (js : List (W16 × FabId × Nat × Nat)) (t : Nat) := x (fun p => { p with bootStep := 10, joins := js }) t
    let j1 : W16 × FabId × Nat × Nat := (3, 8, 0, 5)
    let j2 : W16 × FabId × Nat × Nat := (4, 8, 1, 5)
    p0.Calm ∧ p0.shut = false ∧ (Part.reset 0).shut = true ∧ (Part.reset 0).Calm ∧ fld (0xC1A00001 : W32) 16 16 = 0xC1A0 ∧ bitOf (0xC1A00001 : W32) 0 = true
      ∧ fld (0xC1A00000 : W32) 16 16 = 0xC1A0 ∧ bitOf (0xC1A00000 : W32) 0 = false ∧ fld (0xC1A10001 : W32) 16 16 ≠ 0xC1A0
      ∧ (x fun p => { p with bootStep := 3 }).pwr.bootStep = 3 ∧ p0.mb.st = 0#4 ∧ p0.pwr.bootStep ≠ 3
      ∧ ((ln 0).Calm ∧ (ln 0).pwr.bootStep = 9 ∧ (ln 10000000).pwr.laneAt + (ln 0).pwr.laneTmo.toNat ≤ (ln 10000000).now ∧ (ln 9999999).now < (ln 0).pwr.laneAt + (ln 0).pwr.laneTmo.toNat
        ∧ ({ ln 0 with mb := { (ln 0).mb with keeperUp := 1, st := 3 } } : Part).mb.runs 0 = true ∧ (ln 0).pwr.joins = [] ∧ (ln 0).groups = [] ∧ bitOf (ln 0).gh.lgEn 0 = true ∧ ((ln 0).lg 0).inService = false ∧ ((ln 0).lg 1).inService = false)
      ∧ p0.pwr.bootStep ≠ 9
      ∧ (let c : Part := { x fun p => { p with bootStep := 8 } with mb := { p0.mb with configBytes := some [] } }
         c.Calm ∧ c.pwr.bootStep = 8 ∧ c.mb.configBytes = some [] ∧ c.mb.halted = 0 ∧ c.pwr.joins = [])
      ∧ ((jn [j1] 0).Calm ∧ (jn [j1] 0).pwr.bootStep = 10 ∧ (jn [j1] 0).pwr.joins = [j1] ∧ j1.1 = 3 ∧ j1.2.2.2 + 100000000 ≤ (jn [j1] 100000005).now)
      ∧ (j1 ∈ (jn [j1, j2] 0).pwr.joins ∧ (jn [j1, j2] 0).pwr.joins.find? (fun k => decide (k.1 = 3)) = some j1 ∧ (jn [j1, j2] 0).pwr.joins.any (fun k => k ≠ j1) = true)
      ∧ (∀ j ∈ (jn [j1] 0).pwr.joins, j.1 ≠ 4) := by
  try dsimp only
  and_intros <;> decide

theorem test_wit_TestPort :
    let sp := sq 2 [1, 2, 3, 4, 5, 6, 7, 8] p0 fun x => { x with spoolBuf := some 50 }
    let x : Part := sp.onLarder fun l => { l with bufs := [(50, ⟨64, [(0, 64)], 0, 66⟩)] }
    let k3 : Part := { mbp id with mb := { (mbp id).mb with halted := 8 } }
    let k1 : Part := { mbp id with mb := { (mbp id).mb with halted := 2, k1q := [(1, 0, 1, 5)], noteBase := 64, noteSize := 4 } }
    p0.Calm ∧ p0.shut = false ∧ testCode 0x3F = false ∧ (786431#20).toNat < 786432 ∧ 786432 ≤ (786432#20).toNat ∧ Memory.wf [(3, 1), (64, 5)] = true
      ∧ bankHalf (lineBank (0#20).toNat) = 0 ∧ (5#4 &&& p0.mb.halted) = 0 ∧ (2047#12).toNat < 2048 ∧ 2048 ≤ (2048#12).toNat
      ∧ p0.spoolAt 0 = none
      ∧ (k3.Calm ∧ k3.mb.halted = 8 ∧ bitOf k3.mb.keeperUp 3 = true ∧ k3.mb.traceq = [] ∧ k3.mb.hbLatched = false ∧ k3.gb.staged = [])
      ∧ (k1.Calm ∧ k1.mb.halted = 2 ∧ bitOf k1.mb.keeperUp 1 = true ∧ k1.mb.st = 3#4 ∧ k1.mb.k1q = [(1, 0, 1, 5)] ∧ k1.mb.harbourq = [] ∧ k1.mb.harbourLate = none
        ∧ k1.mb.noteBase ≠ 0 ∧ (k1.mb.noteWr - k1.mb.noteRd).toNat ≠ 2 ^ fld k1.mb.noteSize 0 5)
      ∧ ((p0.regRead 0x124).isSome = true ∧ domOfOff 0x124 = none ∧ p0.regRead 0xFFFF8 = none ∧ domOfOff 0xFFFF8 = none)
      ∧ (x.Calm ∧ (x.spoolAt 0).isSome = true)
      ∧ (let d : Deposit := { ctx := 5, rowblk := 0, tile := 0, tiles := 1, fmt := .t16, units := [un], keep := [], misfit := false, buf := some 50, keepBuf := none }
         let w : Ws := { Ws.reset with deposits := [d] }
         let y : Part := { (p0.onLarder fun l => { l with bufs := [(50, ⟨64, [(0, 64)], 0, 66⟩)] }) with wss := [(2, w)] }
         y.Calm ∧ y.spoolAt 0 = none ∧ y.bufAt 0 = some (50, 0) ∧ y.wss = [(2, w)] ∧ w.deposits = [d] ∧ d.buf = some 50
           ∧ y.bufImages.find? (fun k => decide (k.1 = 50)) = some (50, unitsBytes [un])) := by
  try dsimp only
  and_intros <;> decide

/-- One state for the hypotheses of each clause. -/
theorem test_wit_OtherCommandsComplete :
    (let w := iw [(0x1A, 0), (6, 18)]
     let s (src : BitVec 4) (step : W32) : State := let p := (at2 w).part; st { p with glob := { p.glob with stepSrcEff := src, step := step } }
     let m (src : BitVec 4) : W32 := BitVec.ofNat 32 (fld w 18 32 + (((s src 5).part.seq 2).reg (IW.ga w)).toNat)
     (s 2 5).part.Issues 2 w ∧ (s 0 6).part.Issues 2 w ∧ IW.opc w = 0x1A ∧ IW.gb w = 0 ∧ IW.gc w = 0 ∧ fld w 50 14 = 0
       ∧ ((s 0 6).part.glob.stepSrcEff.toNat ≠ 2 ∧ ((s 0 6).part.glob.step - m 0).toNat < 2 ^ 31)
       ∧ ((s 2 5).part.glob.stepSrcEff.toNat = 2 ∧ m 2 = (s 2 5).part.glob.step + 1 ∧ (s 2 5).part.Calm ∧ (s 2 5).part.groups = [] ∧ (s 2 5).part.gh.helds = []
         ∧ (s 2 5).part.mb.st ≠ 4#4))
    ∧ (let p := { p0 with glob := { p0.glob with stepSrcEff := 15, step := 4 } }
       p.shut = false ∧ p.glob.stepSrcEff = 15#4 ∧ 5#32 = p.glob.step + 1 ∧ p.Calm ∧ p.groups = [] ∧ p.gh.helds = [] ∧ p.mb.st ≠ 4#4)
    ∧ (fld (8 : W32) 0 4 < 9 ∧ fld (0xC1A00001 : W32) 16 16 = 0xC1A0 ∧ bitOf (0xC1A00001 : W32) 0 = true
       ∧ (let b := { Part.reset 0 with pwr := { Pwr.reset with bootStep := 3 } }; b.pwr.bootStep = 3 ∧ b.mb.st = 0#4 ∧ b.pwr.bootStep ≠ 8)
       ∧ ((∀ g, Dom.ssu ≠ .lane g) ∧ p0.domIdle .ssu = true ∧ p0.triggered .ssu = false ∧ p0.pwr.waitQuads = [])
       ∧ (let p := { p0 with pwr := { p0.pwr with waking := [.ssu] } }; p.Calm ∧ Dom.ssu ∈ p.pwr.waking)
       ∧ testCode 0x3F = false ∧ (786431#20).toNat < 786432 ∧ (5#4 &&& p0.mb.halted) = 0 ∧ (2047#12).toNat < 2048)
    ∧ (let idle (m : Mb) : Prop := m.busy = false ∧ m.doorbell = none ∧ m.keeperUp = 0xF ∧ m.halted = 0
       let runs (m : Mb) : Prop := idle m ∧ m.st = 3#4
       let ok (p : Part) : Prop := p.Calm ∧ p.shut = false
       let noteOk (m : Mb) : Prop := m.noteBase ≠ 0 ∧ (m.noteWr - m.noteRd).toNat + 1 ≤ 2 ^ fld m.noteSize 0 5
       let x (f : Mb → Mb) (t : Nat) : Part := tm t (mbp fun m => f { m with noteBase := 64, noteSize := 4 })
       let sh : Part := { mbp id with sensed := setBitAt 0 1668 }
       let ac := mbp fun m => { m with keeperBank := [true, true, true, true], bankA := some img1, bankB := some img1 }
       let gp : Part := { mbp id with groups := [(3, { g0 with manager := true })] }
       let hb := x (fun m => { m with hbArmed := true }) 200000000
       let dr := x (fun m => { m with st := 4 }) 1000000000
       let re := x (fun m => { m with restarting := [(2, (1, false))], keeperUp := 11 }) 10
       let de := x (fun m => { m with deferred := [⟨3, false, true, 0⟩], actPending := true }) 30000000000
       let pw (f : Pwr → Pwr) (t : Nat) : Part := tm t { p0 with pwr := f p0.pwr }
       let em : PwrIn := ⟨false, false, true, 0⟩
       let rel := pw (fun p => { p with release := some 5, stepEff := 5 }) 1000005
       let ln := pw (fun p => { p with bootStep := 9 }) 10000000
       let j1 : W16 × FabId × Nat × Nat := (3, 8, 0, 5)
       let jn := pw (fun p => { p with bootStep := 10, joins := [j1] }) 100000005
       ok p0
       ∧ (ok sh ∧ runs sh.mb ∧ sh.mb.keeperBank = [false, false, false, false] ∧ sh.mb.staged = false ∧ 40 ≤ (⟨0, 40⟩ : WorkArea).len.toNat ∧ (2097152#32).toNat ≤ 2097152 ∧ sh.sensed = setBitAt 0 1668)
       ∧ (ok ac ∧ runs ac.mb ∧ (15#32).toNat = 15 ∧ ac.mb.layoutDiffers = false ∧ ac.mb.emerg = false ∧ ac.mb.keeperBank = List.replicate 4 (!ac.mb.target) ∧ ac.mb.restarting = [])
       ∧ (ok (mbp id) ∧ runs (mbp id).mb ∧ (mbp id).group im.group.toNat = none ∧ im.members ≠ [] ∧ (mbp id).overLimit im true false = false)
       ∧ (ok gp ∧ runs gp.mb ∧ gp.group 3 = some { g0 with manager := true } ∧ ([] : List FabId).length ≤ 256 ∧ 65535 + ([5] : List W64).length ≤ 65536)
       ∧ (ok (mbp fun m => { m with st := 5 }) ∧ idle (mbp fun m => { m with st := 5 }).mb ∧ (mbp fun m => { m with st := 5 }).mb.st = 5#4)
       ∧ (ok (mbp fun m => { m with parked := true }) ∧ runs (mbp fun m => { m with parked := true }).mb ∧ (mbp fun m => { m with parked := true }).mb.parked = true
         ∧ (mbp fun m => { m with parked := true }).seqs = [] ∧ Seq.reset.wait = .none ∧ mbKnown 0 = false)
       ∧ (let y := mbp fun m => { m with run := some ⟨3, 7, 0, [5], none⟩ }; ok y ∧ y.mb.run = some ⟨3, 7, 0, [5], none⟩ ∧ y.mb.toSwitch = [] ∧ y.mb.restarting = [])
       ∧ (ok hb ∧ hb.mb.hbArmed = true ∧ hb.mb.hbLast + 200000000 ≤ hb.now ∧ hb.mb.st = 3#4 ∧ hb.mb.parked = false ∧ hb.mb.keeperUp = 0xF ∧ hb.mb.halted = 0)
       ∧ (ok dr ∧ dr.mb.st = 4#4 ∧ dr.mb.drainAt + 1000000000 ≤ dr.now ∧ dr.mb.harbourLate = none ∧ dr.mb.keeperUp = 0xF ∧ dr.mb.halted = 0 ∧ dr.mb.emerg = false
         ∧ dr.groups = [] ∧ dr.ctxs = [] ∧ noteOk dr.mb)
       ∧ (bitOf dr.mb.keeperUp 2 = true ∧ dr.mb.krst.length = 4 ∧ tabFind dr.mb.rstWin 2 = none)
       ∧ (ok re ∧ tabFind re.mb.restarting 2 = some (1, false) ∧ re.mb.isDeferred 2 = false ∧ re.mb.harbourq = [] ∧ re.mb.halted = 0 ∧ re.mb.krst.length = 4 ∧ re.mb.emerg = false ∧ re.mb.ctlq = []
         ∧ re.mb.k1q = [] ∧ re.mb.traceq = [] ∧ re.mb.harbourLate = none ∧ re.mb.hbLatched = false ∧ re.mb.dropsLate = false ∧ re.gh.roleLate = [])
       ∧ (ok de ∧ de.mb.deferred = [⟨3, false, true, 0⟩] ∧ 0 + 30000000000 ≤ de.now)
       ∧ (p0.pwr.inputs.changes em = [em] ∧ p0.pwr.release = none ∧ p0.mb.restarting = [] ∧ p0.mb.toSwitch = [] ∧ p0.mb.deferred = [] ∧ p0.pwr.inputs.step < em.step)
       ∧ (ok rel ∧ rel.pwr.release = some 5 ∧ 5 + rel.pwr.releaseTmo.toNat ≤ rel.now)
       ∧ (ok ln ∧ ({ ln.mb with keeperUp := 1, st := 3 } : Mb).runs 0 = true ∧ ln.pwr.bootStep = 9 ∧ ln.pwr.laneAt + ln.pwr.laneTmo.toNat ≤ ln.now ∧ ln.pwr.joins = [] ∧ ln.groups = [])
       ∧ (ok jn ∧ jn.pwr.bootStep = 10 ∧ jn.pwr.joins = [j1] ∧ j1.2.2.2 + 100000000 ≤ jn.now)
       ∧ (let o := { om with buf := none, ftype := .put }; let y := p0.onGh fun g => { g with outMsgs := [(4, o)] }
          ok y ∧ tabFind y.gh.outMsgs (4#16).toNat = some o ∧ o.buf = none ∧ o.ftype ≠ .tether)
       ∧ (let y := { p0 with twin := { p0.twin with st := 5 } }; ok y ∧ y.twin.st = 5#3)
       ∧ (ok (at2 0).part ∧ (at2 0).part.Issues 2 0 ∧ IW.opc 0 ∉ opcodes)) := by
  try dsimp only
  and_intros <;> first | decide | exact overLimit_false _ _ _ _ (by decide) (by decide) (by decide) (by decide) (by decide)

/-- The third group: a port with a free place, a descriptor not yet started, one awake with rows to bring, an operand tile, a fence, links. -/
theorem test_wit_OtherCommandsComplete_ports :
    let x := p0.dp 17
    let d := dOk
    let go : DrainJob := { jb with started := true, desc := dOk }
    let o : OpsTile := { tag := 0, tidx := 0, rows := [[1]], next := 0, buf := none }
    (p0.Calm ∧ p0.glob.fencedSelf = false ∧ x.fenced = false ∧ x.exec = none ∧ Desc.chain d = 0 ∧ Desc.pair d = false
        ∧ descCheck d (p0.stream (Desc.stream d)) (x.ctx (Desc.ctx d)) (p0.env (Desc.stream d)).wide false ((p0.lodge (Desc.lodge d)).joinOk d) false (p0.tagOk d) = 0)
      ∧ (let y := withJob jb; y.Calm ∧ y.glob.fencedSelf = false ∧ (y.dp 17).exec = some jb ∧ jb.started = false ∧ jb.lodgeWait = false ∧ jb.pair = .single ∧ (y.dp 17).fenced = false)
      ∧ (let y := withJob go; y.Calm ∧ (y.dp 17).exec = some go ∧ y.rowReady 17 go = true ∧ go.mode = .plain ∧ go.pair = .single ∧ go.lodge = none ∧ go.row + 1 < Desc.rows go.desc)
      ∧ (let y := (awake p0).onDp 17 fun k => { k with ops := [o] }; y.Calm ∧ (y.dp 17).ops = o :: [] ∧ quadOf 17 ∈ y.pwr.awake)
      ∧ (let y := p0.onDp 17 fun k => { k with fenced := true }; y.Calm ∧ (y.dp 17).fenced = true ∧ (y.dp 17).coreFault = false ∧ y.shut = false)
      ∧ (1 ≤ 1 ∧ 4096 ≤ 4096) ∧ p0.twin.st ≠ 2#3 ∧ (let y := lane fun l => { l with lpReq := true }; y.Calm ∧ (y.lg 1).lpReq = true) := by
  try dsimp only
  and_intros <;> decide

/-! The whole machine -/

theorem test_wit_StepTakesFront : { State.reset with pending := [.idcode] }.pending = .idcode :: [] ∧ State.reset.pending = [] := by decide
/-- A FUSE_PROG at the front of the queue: the fuse is blown, nothing in the Larder. -/
theorem test_wit_FusesStayBlown :
    let s : State := { State.reset with pending := [.fuseProg 2047 true], fuses := 5 }
    (match step s with | .next t => decide (bitOf t.fuses 2047 = true ∧ t.fuses = 5 + 2 ^ 2047) | _ => false) = true ∧ bitOf s.fuses 2047 = false := by decide
/-- A line written leaves its non-zero bytes listed. -/
theorem test_wit_LarderKeepsForm :
    let s : State := { State.reset with pending := [.larderAccess true 1 0x500], larderRam := [(3, 1), (64, 9), (200, 2)] }
    RamInv s ∧ (match step s with | .next t => decide (t.larderRam = [(3, 1), (65, 5), (200, 2)]) | _ => false) = true := by decide

/-! ### One step each -/

/-- R234: IMM is sign-extended. -/
theorem test_fetchLit : runs (.fetchLit 2) (at2 (iw [(1, 0), (3, 6), (0xFFFFFFFE, 32)])) fun t => (t.seq 2).reg 3 = -2 && (t.seq 2).pc = 1 := by decide
/-- R227: G0 discards writes. -/
theorem test_fetchLit_g0 : runs (.fetchLit 2) (at2 (iw [(1, 0), (5, 32)])) fun t => (t.seq 2).reg 0 = 0 := by decide
/-- R234: addition wraps. -/
theorem test_fetchAdd_wraps :
    runs (.fetchAdd 2) (at2 (iw [(1, 0), (3, 6), (3, 10), (1, 18), (1, 32)]) fun x => { x with regs := [(3, BitVec.allOnes 64)] }) fun t => (t.seq 2).reg 3 = 0 := by decide
theorem test_fetchAddg :
    runs (.fetchAddg 2) (at2 (iw [(1, 0), (3, 6), (4, 10), (3, 14), (2, 18)]) fun x => { x with regs := [(3, 5), (4, 7)] }) fun t => (t.seq 2).reg 3 = 12 := by decide
/-- R235, R255: an address that is no multiple of 8 faults with ALIGN. -/
theorem test_fetchMem_align : runs (.fetchMem 2) (at2 (iw [(1, 0), (3, 6), (4, 18), (4, 32)])) fun t => (t.seq 2).fcode = 6 && (t.seq 2).st = 4 := by decide
/-- R233, R255: a non-zero unused field faults with RESERVED. -/
theorem test_reserved : runs (.fetchLit 2) (at2 (iw [(1, 0), (1, 14)])) fun t => (t.seq 2).fcode = 2 := by decide
/-- R226, R255: TETHER on the Gatehouse's sequencer faults with UNIT. -/
theorem test_unit : runs (.tetherClose 8) (st (sq 8 [iw [(0x10, 0), (1, 18)]] p0)) fun t => (t.seq 8).fcode = 4 := by decide
/-- R239, R255: the ninth CALL, RET on an empty stack, LOOP END on a counter at 0. -/
theorem test_call_stack : runs (.call 2) (at2 (iw [(0x22, 0)]) fun x => { x with stack := List.replicate 8 0 }) fun t => (t.seq 2).fcode = 5 := by decide
theorem test_ret_stack : runs (.ret 2) (at2 (iw [(0x23, 0)])) fun t => (t.seq 2).fcode = 5 := by decide
theorem test_loop_zero : runs (.loopEnd 2) (at2 (iw [(0x20, 0), (1, 18)])) fun t => (t.seq 2).fcode = 9 := by decide
/-- R239: COND 3 is signed; TARGET beyond the Spool faults with SPOOL. -/
theorem test_br_signed :
    runs (.br 2) (st (sq 2 [iw [(0x21, 0), (3, 6), (3, 18), (1, 21)], 0] p0 fun x => { x with regs := [(3, BitVec.allOnes 64)], lcs := [] })) fun t => (t.seq 2).pc = 1 := by decide
theorem test_br_spool : runs (.br 2) (at2 (iw [(0x21, 0), (1, 21)])) fun t => (t.seq 2).fcode = 3 := by decide
theorem test_halt : runs (.halt 2) (at2 (iw [(0x24, 0), (0x31, 18)])) fun t => (t.seq 2).hcode = 0x31 && bitOf t.irq.seqHalt 2 := by decide
/-- R242: what is taken leaves the count; an event emptied loses its status. -/
theorem test_waitev_takes :
    runs (.waitev 2) (at2 (iw [(0x18, 0), (3, 6), (7, 18), (2, 26)]) fun x => { x with events := [(7, (2, 9))] }) fun t =>
      (t.seq 2).reg 3 = 9 && decide ((t.seq 2).event 7 = (0, 0)) := by decide
/-- R241: a count at 255 stays there and the status becomes an overflow. -/
theorem test_event_overflow :
    runs (.eventSignal 2 7 5) (at2 0 fun x => { x with events := [(7, (255, 0))] }) fun t => ((t.seq 2).event 7).1 = 255 && fld ((t.seq 2).event 7).2 8 8 ≠ 0 := by decide
/-- R253: a mark that is not the next faults with STEP. -/
theorem test_stepmark_fault :
    runs (.stepmark 2) (st { sq 2 [iw [(0x1A, 0), (7, 18)]] p0 with glob := { p0.glob with stepSrcEff := 2, step := 5 } }) fun t => (t.seq 2).fcode = 8 && t.glob.step = 5 := by
  decide
/-- R337: an unmapped write records offset, direction and cause 1; the first record stays. -/
theorem test_unmapped : runs (.unmappedAccess 0xFFFF8 true) (st p0) fun t => t.glob.accessErr && t.glob.errInfo = 0x003FFFF8 := by decide
theorem test_misaligned_after :
    runs (.misalignedAccess 0x102 false) (st { p0 with glob := { p0.glob with accessErr := true, errInfo := 0x003FFFF8 } }) fun t => t.glob.errInfo = 0x003FFFF8 := by decide
/-- R11: a counter reads and clears. -/
theorem test_rc : runs (.rcRead 0x1018) (st (p0.onLarder fun l => { l with starveCnt := 9 })) fun t => t.glob.rdata = 9 && t.larder.starveCnt = 0 := by decide
/-- R155: a reserved chain is rejected with code 1, its slot released. -/
theorem test_reject : runs (.drainDescriptorIssue 17 0xD none) (st p0) fun t => fld (t.dp 17).reject 0 8 = 1 && t.out.contains (.slotFree 17 0) := by decide
/-- R161: CORE_FAULT keeps the slots of the port's descriptors. -/
theorem test_core_fault :
    runs (.coreFault 17 true) (st (withJob { jb with desc := BitVec.ofNat 128 (2 ^ 25) })) fun t => (t.dp 17).fenced && (t.dp 17).held = 4 && (t.dp 17).exec = none := by decide
/-- R42, R50: a row of 128 FP32 elements leaves as 512 bytes on the port of its Waystation. -/
theorem test_row_write :
    runs (.accRowArrive 17 (List.replicate 128 0x3F800000) false) (st (withJob { jb with started := true, desc := dOk, ctx := { DrainCtx.reset with data := 0x1000 } })) fun t =>
      match t.out with
      | .nocWrite 2 0 a d :: _ => decide (a = 0x1000 ∧ d.length = 512 ∧ d.take 4 = [0, 0, 0x80, 0x3F])
      | _ => false := by decide
/-- R30: a request that its floor covers is granted. -/
theorem test_grant :
    runs .larderGrant (st (p0.onLarder fun l => { l with queue := [{ id := 3, requester := 0, consumer := 64, part := 1, credits := 8, starved := false, made := 0 }] })) fun t =>
      t.larder.queue.isEmpty && t.larder.occ.getD 1 0 = 8 := by decide
/-- R54, R202: a flit with a FEC error is asked for again. -/
theorem test_fec : runs (.flitReceive 1 0 [] true) (st (lane up)) fun t => (t.lg 1).linkq = [.retry 0] && (t.lg 1).rxSeq = 0 := by decide
/-- R203: INIT brings the far end's buffers. -/
theorem test_init : runs (.linkInit 1 [1, 2, 3, 4, 5, 6]) (st (lane fun l => { l with active := true })) fun t => (t.lg 1).credits = [1, 2, 3, 4, 5, 6] && (t.lg 1).initRx := by
  decide
/-- R223: a lone member of a barrier has its result at once. -/
theorem test_barrier : runs (.courierIssue 1 (BitVec.ofNat 32 (bitsOf [(2, 0), (5, 8)]))) (st (cg id)) fun t => (t.crg 1).doneF && (t.crg 1).count = 1 && bitOf t.irq.cr 1 := by
  decide
/-- R57: a twin word with a wrong check word is dropped and asked for again. -/
theorem test_twin_crc : runs (.twinWordReceive 0 [1] 0 ⟨.nothing, none⟩) (st p0) fun t => t.out = [.twinRetry 0] && t.twin.rxSeq = 0 := by decide
/-- R306: the heartbeat arms in RUNNING alone. -/
theorem test_heartbeat : runs (.heartbeat 7) (st (mbp id)) (fun t => t.mb.hbArmed && t.mb.hbCount = 7) ∧ runs (.heartbeat 7) (st p0) fun t => !t.mb.hbArmed := by decide
/-- R65: a sample 3 ns ahead of the 5 ns cycle stretches it by 1 ns; one behind the local time never turns it back. -/
theorem test_sample : runs (.timeBaseSample 108) (st (tm 100 p0)) (fun t => t.glob.time = 106) ∧ runs (.timeBaseSample 90) (st (tm 2000 p0)) fun t => t.glob.time = 2000 && t.glob.tbHold := by
  decide
/-- R319: a warm reset counts itself and resumes at step 1, behind which step 2 comes; the wrong KEY is refused with cause 3. -/
theorem test_warm : runs (.softwareWarmReset 0xC1A00001) (st p0) (fun t => t.pwr.warmCnt = 1 && t.pwr.bootStep = 1)
    ∧ runs (.softwareWarmReset 0xC1A10001) (st p0) fun t => fld t.glob.errInfo 21 4 = 3 := by decide
/-- R67: IDCODE, least significant bit first. -/
theorem test_idcode : runs .idcode (st p0) fun t => match t.out with | [.testOut b] => b.take 8 = [true, true, true, true, true, true, false, false] | _ => false := by decide
/-- R327: an access beyond the last line is not completed, and no fuse lies beyond the last. -/
theorem test_no_such_line : (match exec (.larderAccess true 786432 0) State.reset with | .next t => decide (t.larderRam = []) | _ => false) = true
    ∧ (match exec (.fuseProg 2048 true) State.reset with | .next t => decide (t.fuses = State.reset.fuses) | _ => false) = true := by decide
/-- A step on an empty queue, and one that takes the front and leaves the rest. -/
theorem test_step : step State.reset = .next State.reset
    ∧ (match step { State.reset with pending := [.idcode, .fuseRead] } with | .next t => decide (t.pending = [.fuseRead]) | _ => false) = true := ⟨rfl, by decide⟩

/-- R296, R311: a note and an entry of the Guestbook, byte by byte. -/
theorem test_note_bytes : noteBytes 10 0x0102 0x0A0B0C0D 0x11 = [0x11, 0, 0, 0, 0, 0, 0, 0, 10, 0, 2, 1, 0x0D, 0x0C, 0x0B, 0x0A]
    ∧ (GuestEntry.mk 4 3 0x0102 [7] 0x21 0x31).bytes
      = [0x21, 0, 0, 0, 0, 0, 0, 0, 0x31, 0, 0, 0, 4, 3, 2, 1, 7, 0, 0, 0, 0, 0, 0, 0, 0, 0, 0, 0, 0, 0, 0, 0] := by decide

end Sys2Proof.Tests
end

section
/-! PROOFS. Fields, single bits and bits cleared. -/

namespace Sys2Proof.Machine
open Sys2Proof

/-! ### Fields and single bits -/

theorem bitOf_eq_getLsbD {w : Nat} (v : BitVec w) (i : Nat) : bitOf v i = v.getLsbD i := rfl

theorem fld_eq_div_mod {w : Nat} (v : BitVec w) (lo len : Nat) : fld v lo len = v.toNat / 2 ^ lo % 2 ^ len := by
  simp [fld, Nat.shiftRight_eq_div_pow]

/-- A register of `k` bits takes the `k` bits of the word from `lo` on. -/
theorem ofNat_fld {w : Nat} (v : BitVec w) (lo k : Nat) : BitVec.ofNat k (fld v lo k) = BitVec.ofNat k (v.toNat / 2 ^ lo) := by
  apply BitVec.eq_of_toNat_eq
  simp [fld_eq_div_mod]

/-- A register of the word's `k` low bits. -/
theorem ofNat_fld_low {w : Nat} (v : BitVec w) (k : Nat) : BitVec.ofNat k (fld v 0 k) = BitVec.ofNat k v.toNat := by
  simpa using ofNat_fld v 0 k

/-- The bits above `k` reserved: the register reads as the word with them 0 (R5). -/
theorem and_lowMask (v : W32) {k : Nat} (hk : k ≤ 32) : v &&& BitVec.ofNat 32 (2 ^ k - 1) = w32 (v.toNat % 2 ^ k) := by
  have hlt : 2 ^ k - 1 < 2 ^ 32 := Nat.lt_of_lt_of_le (Nat.sub_lt (Nat.two_pow_pos k) (by omega)) (Nat.pow_le_pow_right (by omega) hk)
  apply BitVec.eq_of_toNat_eq
  rw [BitVec.toNat_and, BitVec.toNat_ofNat, Nat.mod_eq_of_lt hlt, Nat.and_two_pow_sub_one_eq_mod]
  exact (Nat.mod_eq_of_lt (Nat.lt_of_le_of_lt (Nat.mod_le _ _) v.isLt)).symm

theorem w32_fld_low (v : W32) {k : Nat} (hk : k ≤ 32) : w32 (fld v 0 k) = v &&& BitVec.ofNat 32 (2 ^ k - 1) := by
  rw [and_lowMask v hk, fld_eq_div_mod]; simp

theorem and_ones (v : W32) : v &&& 0xFFFFFFFF = v := BitVec.and_allOnes

theorem bitIf_testBit (n i : Nat) : bitIf (n.testBit i) i = n / 2 ^ i % 2 * 2 ^ i := by
  rw [Nat.testBit_eq_decide_div_mod_eq]
  unfold bitIf
  rcases Nat.mod_two_eq_zero_or_one (n / 2 ^ i) with h | h <;> simp [h]

theorem w32_b2n_bit0 (v : W32) : w32 (b2n (bitOf v 0)) = v &&& 1#32 := by
  rw [show (1#32) = BitVec.ofNat 32 (2 ^ 1 - 1) from rfl, and_lowMask v (by omega)]
  have h := bitIf_testBit v.toNat 0
  simp only [bitIf, Nat.pow_zero, Nat.div_one, Nat.mul_one] at h
  exact congrArg w32 h

theorem w32_bits01 (v : W32) : w32 (bitIf (bitOf v 0) 0 + bitIf (bitOf v 1) 1) = v &&& 3#32 := by
  rw [show (3#32) = BitVec.ofNat 32 (2 ^ 2 - 1) from rfl, and_lowMask v (by omega), bitOf, bitOf, bitIf_testBit, bitIf_testBit]
  congr 1
  omega

theorem w32_halves (v : W32) : w32 ((BitVec.ofNat 16 v.toNat).toNat + (BitVec.ofNat 16 (v.toNat / 2 ^ 16)).toNat * 2 ^ 16) = v := by
  apply BitVec.eq_of_toNat_eq
  have := v.isLt
  simp only [w32, BitVec.toNat_ofNat]
  omega

/-! ### Bits cleared (R10) -/

theorem bitOf_clearBits {w : Nat} (x m : BitVec w) (n : Nat) : bitOf (clearBits x m) n = (bitOf x n && !bitOf m n) := by
  simp only [bitOf_eq_getLsbD, clearBits, BitVec.getLsbD_and, BitVec.getLsbD_not]
  by_cases h : n < w
  · simp [h]
  · simp [BitVec.getLsbD_of_ge x n (by omega)]

theorem bitOf_ofNat {w k n : Nat} (h : n < w) : bitOf (BitVec.ofNat w k) n = k.testBit n := by
  simp [bitOf, Nat.testBit_mod_two_pow, h]

/-- A bit of a field. -/
theorem testBit_fld {w : Nat} (v : BitVec w) (lo : Nat) {len n : Nat} (h : n < len) : (fld v lo len).testBit n = bitOf v (lo + n) := by
  simp [fld, bitOf, Nat.testBit_mod_two_pow, Nat.testBit_shiftRight, h]

theorem bitOf_clearHalf (x : W64) (v : W32) (hi : Bool) {n : Nat} (hn : n < 64) :
    bitOf (clearHalf x v hi) n = (bitOf x n && !(decide (n / 32 = if hi then 1 else 0) && bitOf v (n % 32))) := by
  have key : (v.toNat * (if hi then 2 ^ 32 else 1)).testBit n = (decide (n / 32 = if hi then 1 else 0) && bitOf v (n % 32)) := by
    cases hi with
    | false =>
      by_cases h : n < 32
      · have hd : n / 32 = 0 := by omega
        have hm : n % 32 = n := by omega
        simp [bitOf, hd, hm]
      · have hd : n / 32 ≠ 0 := by omega
        have hz : v.toNat.testBit n = false :=
          Nat.testBit_lt_two_pow (Nat.lt_of_lt_of_le v.isLt (Nat.pow_le_pow_right (by omega) (by omega)))
        simp [hd, hz]
    | true =>
      rw [if_pos rfl, Nat.testBit_mul_two_pow]
      by_cases h : 32 ≤ n
      · have hd : n / 32 = 1 := by omega
        have hm : n % 32 = n - 32 := by omega
        simp [bitOf, hd, hm, h]
      · have hd : n / 32 ≠ 1 := by omega
        simp [hd, h]
  rw [clearHalf, bitOf_clearBits, bitOf_ofNat hn, key]

end Sys2Proof.Machine
end

section
/-! PROOFS. Where the halves of 64-bit quantities stand in the window (R12), and the reads and writes of both kinds of register. -/

namespace Sys2Proof.Machine
open Sys2Proof

/-! ### Where the 64-bit quantities stand (R12) -/

/-- The aligned offsets at which the low half of a 64-bit quantity may stand. -/
def LowHalf (off : Nat) : Prop :=
  (0x4000 ≤ off ∧ off < 0x8000 ∧ 0x40 ≤ off % 0x100 ∧ off % 8 = 0 ∧ off % 0x40 ≤ 0x28)
    ∨ (0x8000 ≤ off ∧ off < 0xA000 ∧ (off % 0x400 = 0x10 ∨ off % 0x400 = 0x58)) ∨ off = 0xA410
    ∨ (0xA100 ≤ off ∧ off < 0xA300 ∧ off % 8 = 0)
    ∨ (off = 0x20 ∨ off = 0x110 ∨ off = 0x118 ∨ off = 0x210 ∨ off = 0x218 ∨ off = 0x220 ∨ off = 0xC074 ∨ off = 0xA05C ∨ off = 0xD068
      ∨ off = 0xD070 ∨ off = 0xD100 ∨ off = 0xD210 ∨ off = 0xD220 ∨ off = 0xD338)

/-- No quantity begins in the high half of another. -/
theorem LowHalf.not_high {off : Nat} (h : LowHalf off) : ¬ LowHalf (off + 4) := by
  unfold LowHalf at *; omega

theorem DrainCtx.pair_isSome {c : DrainCtx} {r : Nat} (h : (c.pair r).isSome) : r % 8 = 0 ∧ r ≤ 0x28 := by
  unfold DrainCtx.pair at h
  split at h <;> try omega
  cases h

theorem seqOfOff_eq_some {off q o : Nat} (h : seqOfOff off = some (q, o)) :
    (0x8000 ≤ off ∧ off < 0xA000 ∧ off % 0x400 = o ∧ o < 0x40 ∧ q = (off - 0x8000) / 0x400)
      ∨ (0xA400 ≤ off ∧ off < 0xA440 ∧ o = off - 0xA400 ∧ q = 8) := by
  unfold seqOfOff at h
  split at h
  · cases h; omega
  · split at h
    · cases h; omega
    · cases h

theorem seqOfOff_lt {off q o : Nat} (h : seqOfOff off = some (q, o)) : q < 9 := by
  have := seqOfOff_eq_some h
  omega

theorem lowHalf_of_pairAt {p : Part} {off : Nat} {x : Bool × W64} (h : p.pairAt off = some x) : LowHalf off := by
  unfold Part.pairAt at h
  split at h
  next n o hd =>
    unfold dpOfOff at hd
    split at hd <;> cases hd
    split at h
    · cases h
    · obtain ⟨y, hy, -⟩ := Option.map_eq_some_iff.1 h
      have := DrainCtx.pair_isSome (Option.isSome_of_eq_some hy)
      exact .inl (by omega)
  next =>
    split at h
    next q o hq =>
      have := seqOfOff_eq_some hq
      split at h
      · unfold LowHalf; omega
      · cases h
    next =>
      split at h
      · split at h
        · unfold LowHalf; omega
        · cases h
      · split at h
        · unfold LowHalf; omega
        · split at h <;> try (unfold LowHalf; omega)
          cases h

theorem pairAt_none (p : Part) {off : Nat} (h : ¬ LowHalf off) : p.pairAt off = none := by
  rcases hx : p.pairAt off with _ | x
  · rfl
  · exact absurd (lowHalf_of_pairAt hx) h

/-- Registers stand at aligned offsets alone (R8). -/
theorem regRead_aligned {p : Part} {off : Nat} (h : (p.regRead off).isSome = true) : off % 4 = 0 := by
  refine Decidable.byContradiction fun hne => ?_
  rw [Part.regRead, if_pos hne] at h
  cases h

/-- A register of 32 bits that stands at the offset: no half of a 64-bit quantity. -/
def PlainAt (off : Nat) : Prop := off % 4 = 0 ∧ ¬ LowHalf off ∧ ¬ LowHalf (off - 4)

theorem PlainAt.notLow {off : Nat} : PlainAt off → ¬ LowHalf off := fun ⟨_, h, _⟩ => h

theorem pairBelow_none (p : Part) {off : Nat} (h : ¬ LowHalf (off - 4)) : (if off < 4 then none else p.pairAt (off - 4)) = none := by
  rw [pairAt_none p h, ite_self]

theorem regRead_plain (p : Part) {off : Nat} (h : PlainAt off) : p.regRead off = p.rdOne off := by
  obtain ⟨h4, hlow, hhigh⟩ := h
  rw [Part.regRead, if_neg (by omega), pairAt_none p hlow]
  dsimp only
  rw [pairBelow_none p hhigh]

theorem regWrite_plain (p : Part) {off : Nat} (v : W32) (h : PlainAt off) : p.regWrite off v = p.wrOne off v := by
  obtain ⟨-, hlow, hhigh⟩ := h
  rw [Part.regWrite, pairAt_none p hlow]
  dsimp only
  rw [pairBelow_none p hhigh]

/-- A low half written and not yet in force reads back (R10). -/
theorem regRead_low {p : Part} {off : Nat} {x : Bool × W64} (h4 : off % 4 = 0) (h : p.pairAt off = some x) :
    p.regRead off = some ((tabFind p.glob.lowHold off).getD (w32 (fld x.2 0 32))) := by
  rw [Part.regRead, if_neg (by omega), h]

/-- A high half reads as it was latched, or as it stands (R12). -/
theorem regRead_high {p : Part} {off : Nat} {x : Bool × W64} (h4 : off % 4 = 0) (h : p.pairAt off = some x) :
    p.regRead (off + 4) = some ((tabFind p.glob.latch (off + 4)).getD (w32 (fld x.2 32 32))) := by
  rw [Part.regRead, if_neg (by omega), pairAt_none p (lowHalf_of_pairAt h).not_high]
  dsimp only
  rw [if_neg (by omega), Nat.add_sub_cancel, h]

theorem regWrite_low {p : Part} {off : Nat} {x : W64} (v : W32) (h : p.pairAt off = some (true, x)) :
    p.regWrite off v = p.onGlob fun g => { g with lowHold := tabInsert g.lowHold off (v &&& pairLow off) } := by
  rw [Part.regWrite, h]

/-- The high half written brings both into force (R12). -/
theorem regWrite_high {p : Part} {off : Nat} {x : W64} {l : W32} (v : W32) (h : p.pairAt off = some (true, x))
    (hl : tabFind p.glob.lowHold off = some l) :
    p.regWrite (off + 4) v = (p.onGlob fun g => { g with lowHold := tabErase g.lowHold off }).setPair off (BitVec.ofNat 64 (l.toNat + v.toNat * 2 ^ 32)) := by
  rw [Part.regWrite, pairAt_none p (lowHalf_of_pairAt h).not_high]
  dsimp only
  rw [if_neg (by omega), Nat.add_sub_cancel, h]
  dsimp only
  rw [hl]
  rfl

/-- No count clears where a 64-bit quantity stands. -/
theorem rcClear_lowHalf (p : Part) {off : Nat} (h : LowHalf off) : p.rcClear off = p := by
  unfold Part.rcClear
  unfold LowHalf at h
  split
  next q o hq =>
    have hq := seqOfOff_eq_some hq
    split <;> try omega
    rfl
  next hq =>
    split
    · omega
    · split
      · dsimp only
        split <;> try omega
        rfl
      · split
        · dsimp only
          split <;> try omega
          rfl
        · split <;> try omega
          rfl

end Sys2Proof.Machine
end

section
/-! PROOFS. What keeps a part calm, and the rule of a register write. -/

namespace Sys2Proof.Machine
open Sys2Proof

/-! ### Calm -/

theorem mem_tabErase {α : Type} {t : Tab α} {i : Nat} {x : Nat × α} (h : x ∈ tabErase t i) : x ∈ t := by
  induction t with
  | nil => exact h
  | cons y t ih =>
    unfold tabErase at h
    split at h
    · exact .tail _ (ih h)
    · rcases List.mem_cons.1 h with rfl | h
      · exact .head _
      · exact .tail _ (ih h)

theorem mem_tabInsert {α : Type} {t : Tab α} {i : Nat} {v : α} {x : Nat × α} (h : x ∈ tabInsert t i v) : x = (i, v) ∨ x ∈ t := by
  induction t with
  | nil => exact .inl (List.mem_singleton.1 h)
  | cons y t ih =>
    unfold tabInsert at h
    split at h
    · exact List.mem_cons.1 h
    · split at h
      · exact (List.mem_cons.1 h).imp_right (.tail _)
      · rcases List.mem_cons.1 h with rfl | h
        · exact .inr (.head _)
        · exact (ih h).imp_right (.tail _)

theorem mem_tabMod {α : Type} [DecidableEq α] {t : Tab α} {i : Nat} {d : α} {f : α → α} {x : Nat × α} (h : x ∈ tabMod t i d f) :
    x = (i, f (tabGet t i d)) ∨ x ∈ t := by
  unfold tabMod tabSet at h
  split at h
  · exact .inr (mem_tabErase h)
  · exact mem_tabInsert h

theorem mem_of_tabFind {α : Type} {t : Tab α} {i : Nat} {v : α} (h : tabFind t i = some v) : (i, v) ∈ t := by
  induction t with
  | nil => cases h
  | cons y t ih =>
    unfold tabFind at h
    split at h
    next hi => cases h; subst hi; exact .head _
    next => exact .tail _ (ih h)

/-- In a calm state no port holds a descriptor outside. -/
theorem Part.Calm.offers {s : Part} (h : s.Calm) (n : Nat) : (s.dp n).offers = [] := by
  obtain ⟨-, -, ⟨hoff, -, -⟩, -⟩ := h
  unfold Part.dp tabGet
  cases hn : tabFind s.dps n with
  | none => rfl
  | some d => exact hoff _ (mem_of_tabFind hn)

theorem Part.Calm.noPlaceWait {s : Part} (h : s.Calm) {q : Nat} (hq : q < 9) : (s.seq q).wait.place = false := by
  obtain ⟨-, -, -, hwait⟩ := h
  exact hwait q hq

/-- A change of a drain port that takes no descriptor keeps calm. -/
theorem Part.Calm.onDp {s : Part} (h : s.Calm) (n : Nat) (f : Dp → Dp) (hf : (f (s.dp n)).offers = (s.dp n).offers) : (s.onDp n f).Calm := by
  have hn := h.offers n
  obtain ⟨hctl, hxfers, ⟨hoff, hout⟩, hwait⟩ := h
  refine ⟨hctl, hxfers, ⟨fun x hx => ?_, hout⟩, hwait⟩
  rcases mem_tabMod hx with rfl | hx
  · exact hf.trans hn
  · exact hoff x hx

@[simp] theorem Dp.onCtxK_offers (d : Dp) (k : Nat) (f : DrainCtx → DrainCtx) : (d.onCtxK k f).offers = d.offers := by
  unfold Dp.onCtxK; split
  · rfl
  · split <;> rfl

theorem Dp.ctxK_onCtxK (d : Dp) {k : Nat} (f : DrainCtx → DrainCtx) : (d.onCtxK k f).ctxK k = f (d.ctxK k) := by
  unfold Dp.onCtxK
  split
  next h => simp [Dp.ctxK, h]
  next h0 =>
    split
    next h => simp [Dp.ctxK, h]
    next h => simp [Dp.ctxK, h0, h]

/-! ### The commands of the window -/

theorem Becomes.acts {c : Instr} {s : State} {x : Part} {P : Part → Prop} (h : Becomes c s x) (hP : P x.finish) : Acts c s P :=
  ⟨_, h, rfl, rfl, rfl, hP⟩

section Write
variable {s : State} {o : BitVec 20} {v : W32} {x : Part}

/-- A write of a register that leaves a calm part and no reset (R10). -/
theorem registerWrite_becomes (hopen : s.part.shut = false) (off : Nat) (ho : o.toNat = off) (hr : (s.part.regRead off).isSome = true)
    (hw : s.part.regWrite off v = x) (hcalm : x.Calm) (hboot : x.pwr.bootStep = s.part.pwr.bootStep) : Becomes (.registerWrite o v) s x := by
  have h4 := regRead_aligned hr
  have ht : doRegisterWrite o v s.part = x.finish := by
    rw [doRegisterWrite, Part.windowWrite, ho, hopen, if_neg (by simp), if_neg (by omega), if_pos hr, hw, settle_calm hcalm]
  show State.runReset s _ = _
  unfold State.runReset
  simp only [ht, Part.finish_pwr, hboot]
  rw [if_neg fun h => h.2 h.1]

theorem toNat_offset {off : Nat} (hoff : off < 2 ^ 20) : (BitVec.ofNat 20 off).toNat = off := Nat.mod_eq_of_lt hoff

/-- A write of a register that reads back what it took. -/
theorem registerWrite_reads {r : W32} (hopen : s.part.shut = false) (off : Nat) (hr : (s.part.regRead off).isSome = true) (hw : s.part.regWrite off v = x)
    (hcalm : x.Calm) (hboot : x.pwr.bootStep = s.part.pwr.bootStep) (hback : x.regRead off = some r) (hoff : off < 2 ^ 20 := by decide) :
    Becomes (.registerWrite (BitVec.ofNat 20 off) v) s x ∧ x.regRead off = some r :=
  ⟨registerWrite_becomes hopen off (toNat_offset hoff) hr hw hcalm hboot, hback⟩

end Write

/-! ### What is stamped reads the same -/

/-- Of the global group the quantities of 64 bits show the times alone. -/
theorem pairAt_congr {p t : Part} (hframe : t = { p with glob := t.glob }) (htime : t.glob.time = p.glob.time)
    (hstep : t.glob.stepTime = p.glob.stepTime) (off : Nat) : t.pairAt off = p.pairAt off := by
  rw [hframe]
  unfold Part.pairAt
  dsimp only
  rw [htime, hstep]
  rfl

end Sys2Proof.Machine
end

section
/-! PROOFS. The W1C registers (R10). -/

namespace Sys2Proof.Machine
open Sys2Proof

/-- A W1C register of the interrupt group: the write changes that group alone. -/
theorem irqWrite_acts {s : State} {o : BitVec 20} {v : W32} (j : Irq) {P : Part → Prop} (hopen : s.part.shut = false) (hcalm : s.part.Calm) (off : Nat)
    (ho : o.toNat = off) (hr : (s.part.regRead off).isSome = true) (hw : s.part.regWrite off v = { s.part with irq := j })
    (hP : P ({ s.part with irq := j } : Part).finish) : Acts (.registerWrite o v) s P :=
  (registerWrite_becomes hopen off ho hr hw hcalm rfl).acts hP

/-- Bits of a register cleared by a field of the word that begins at `lo`. -/
theorem bitOf_clearField {k : Nat} (x : BitVec k) (v : W32) (lo : Nat) {n : Nat} (h : n < k) :
    bitOf (clearBits x (BitVec.ofNat k (fld v lo k))) n = (bitOf x n && !bitOf v (lo + n)) := by
  rw [bitOf_clearBits, bitOf_ofNat h, testBit_fld v lo h]

theorem bitOf_clearField_low {k : Nat} (x : BitVec k) (v : W32) {n : Nat} (h : n < k) :
    bitOf (clearBits x (BitVec.ofNat k (fld v 0 k))) n = (bitOf x n && !bitOf v n) := by
  rw [bitOf_clearField x v 0 h, Nat.zero_add]

end Sys2Proof.Machine

open Sys2Proof Sys2Proof.Machine

/-- Settles O13: each W1C register is cleared by the word's bits and nothing else changes. -/
theorem writeOneToClear : Obligations.WriteOneToClear := by
  unfold Obligations.WriteOneToClear
  intro v s ho hc p i
  refine ⟨registerWrite_becomes ho 0x200 rfl rfl rfl hc rfl, registerWrite_becomes ho 0x104 rfl rfl rfl hc rfl,
    registerWrite_becomes ho 0xC000 rfl rfl rfl hc rfl, registerWrite_becomes ho 0x1004 rfl rfl rfl hc rfl, fun hi => ?dpErr, ?seqs,
    fun hi => ?dpRej, fun hi => ?dpFence, ?courier, ?gatehouse⟩
  case dpErr =>
    exact irqWrite_acts { i with dpErr := clearHalf i.dpErr v hi } ho hc (if hi then 0x214 else 0x210) (by cases hi <;> rfl) (by cases hi <;> rfl)
      (by cases hi <;> rfl) ⟨fun _ hn => bitOf_clearHalf i.dpErr v hi hn, rfl, rfl⟩
  case seqs =>
    exact irqWrite_acts _ ho hc 0x228 rfl rfl rfl ⟨fun _ hn => ⟨bitOf_clearField_low _ v hn, bitOf_clearField _ v 16 hn⟩, rfl, rfl⟩
  case dpRej =>
    exact irqWrite_acts { i with dpRej := clearHalf i.dpRej v hi } ho hc (if hi then 0x21C else 0x218) (by cases hi <;> rfl) (by cases hi <;> rfl)
      (by cases hi <;> rfl) ⟨fun _ hn => bitOf_clearHalf i.dpRej v hi hn, rfl, rfl⟩
  case dpFence =>
    exact irqWrite_acts { i with dpFence := clearHalf i.dpFence v hi } ho hc (if hi then 0x224 else 0x220) (by cases hi <;> rfl) (by cases hi <;> rfl)
      (by cases hi <;> rfl) ⟨fun _ hn => bitOf_clearHalf i.dpFence v hi hn, rfl, rfl⟩
  case courier => exact irqWrite_acts _ ho hc 0x22C rfl rfl rfl ⟨fun _ hn => bitOf_clearField_low _ v hn, rfl, rfl⟩
  case gatehouse => exact irqWrite_acts _ ho hc 0x230 rfl rfl rfl ⟨fun _ hn => bitOf_clearField_low _ v hn, rfl, rfl⟩
end

section
/-! PROOFS. The window's registers by unit: their reads and what a read clears (R11) or latches (R12). -/

namespace Sys2Proof.Machine
open Sys2Proof

/-! ### Registers by unit -/

section Units
variable {n k w o off : Nat} (p : Part)

theorem dpOfOff_port (hn : n < 64) (ho : o < 0x100) (h : off = 0x4000 + 0x100 * n + o) : dpOfOff off = some (n, o) := by
  rw [dpOfOff, if_pos (by omega)]
  exact congrArg some (Prod.ext (by simp only; omega) (by simp only; omega))

theorem dpOfOff_outside (h : ¬ (0x4000 ≤ off ∧ off < 0x8000)) : dpOfOff off = none := if_neg h

theorem seqOfOff_ws (hw : w < 8) (ho : o < 0x40) (h : off = 0x8000 + 0x400 * w + o) : seqOfOff off = some (w, o) := by
  rw [seqOfOff, if_pos (by omega)]
  exact congrArg some (Prod.ext (by simp only; omega) (by simp only; omega))

theorem seqOfOff_outside (h : ¬ (0x8000 ≤ off ∧ off < 0xA000 ∧ off % 0x400 < 0x40)) (h' : ¬ (0xA400 ≤ off ∧ off < 0xA440)) :
    seqOfOff off = none := by
  rw [seqOfOff, if_neg h, if_neg h']

/-! #### Reads -/

theorem rdOne_port (hn : n < 64) (ho : o < 0x100) (h : off = 0x4000 + 0x100 * n + o) : p.rdOne off = p.rdDp n o := by
  have hd : (off - 0x4000) / 0x100 = n := by omega
  have hm : off % 0x100 = o := by omega
  rw [Part.rdOne, seqOfOff_outside (by omega) (by omega)]
  simp only [hd, hm]
  rw [if_neg (by omega), if_neg (by omega), if_neg (by omega), if_neg (by omega), if_pos (by omega)]

theorem rdOne_seq {q : Nat} (h : seqOfOff off = some (q, o)) : p.rdOne off = (p.seq q).rd o := by rw [Part.rdOne, h]

theorem rdOne_ws (hw : w < 8) (ho : 0x40 ≤ o) (ho' : o < 0x400) (h : off = 0x8000 + 0x400 * w + o) : p.rdOne off = p.rdWs w o := by
  have hd : (off - 0x8000) / 0x400 = w := by omega
  have hm : off % 0x400 = o := by omega
  rw [Part.rdOne, seqOfOff_outside (by omega) (by omega)]
  simp only [hd, hm]
  rw [if_neg (by omega), if_neg (by omega), if_neg (by omega), if_neg (by omega), if_neg (by omega), if_pos (by omega)]

theorem rdOne_larder (ho : o < 0x300) (h : off = 0x1000 + o) : p.rdOne off = p.larder.rd o := by
  have hd : off - 0x1000 = o := by omega
  rw [Part.rdOne, seqOfOff_outside (by omega) (by omega)]
  simp only [hd]
  rw [if_neg (by omega), if_neg (by omega), if_pos (by omega)]

/-- Floor and ceiling as shown, occupancy and peak of partition `k` (R340). -/
theorem Larder.rd_floor (l : Larder) (hk : k < 16) (h : off = 0x100 + 0x10 * k) : l.rd off = some (w32 (l.shown.floors.getD k 0)) := by
  have hd : (off - 0x100) / 0x10 = k := by omega
  have hm : off % 0x10 = 0 := by omega
  unfold Larder.rd
  rw [if_pos (by omega)]
  simp only [hd, hm]

theorem Larder.rd_ceil (l : Larder) (hk : k < 16) (h : off = 0x104 + 0x10 * k) : l.rd off = some (w32 (l.shown.ceils.getD k 0)) := by
  have hd : (off - 0x100) / 0x10 = k := by omega
  have hm : off % 0x10 = 4 := by omega
  unfold Larder.rd
  rw [if_pos (by omega)]
  simp only [hd, hm]

theorem Larder.rd_peak (l : Larder) (hk : k < 16) (h : off = 0x10C + 0x10 * k) : l.rd off = some (w32 (l.peak.getD k 0)) := by
  have hd : (off - 0x100) / 0x10 = k := by omega
  have hm : off % 0x10 = 0xC := by omega
  unfold Larder.rd
  rw [if_pos (by omega)]
  simp only [hd, hm]

/-! #### What reads clear -/

/-- The RC registers of a drain port (R143), each cleared. -/
def Dp.clearAt (o : Nat) (d : Dp) : Dp :=
  match o with
  | 0x0C => { d with rejectCnt := 0 }
  | 0x10 => { d with errCnt := 0 }
  | 0x14 => { d with abortCnt := 0 }
  | 0x18 => { d with tileCnt := 0 }
  | _ => d

/-- The RC registers of a sequencer (R231), each cleared. -/
def Seq.clearAt (o : Nat) (x : Seq) : Seq :=
  match o with
  | 0x20 => { x with instrCnt := 0 }
  | 0x24 => { x with wstoreErr := 0 }
  | _ => x

/-- The RC registers of a Waystation (R342), each cleared. -/
def Ws.clearAt (o : Nat) (y : Ws) : Ws :=
  match o with
  | 0x44 => { y with replayCnt := 0 }
  | 0x48 => { y with replayDiscard := 0 }
  | 0x4C => { y with tetherBad := 0 }
  | 0x50 => { y with tetherLate := 0 }
  | _ => y

theorem rcClear_port (hn : n < 64) (ho : o = 0x0C ∨ o = 0x10 ∨ o = 0x14 ∨ o = 0x18) (h : off = 0x4000 + 0x100 * n + o) :
    p.rcClear off = p.onDp n (Dp.clearAt o) := by
  have hd : (off - 0x4000) / 0x100 = n := by omega
  have hm : off % 0x100 = o := by omega
  unfold Part.rcClear
  rw [seqOfOff_outside (by omega) (by omega)]
  simp only [hd, hm]
  rw [if_neg (by omega), if_pos (by omega)]
  rcases ho with rfl | rfl | rfl | rfl <;> rfl

theorem rcClear_seq {q : Nat} (ho : o = 0x20 ∨ o = 0x24) (h : seqOfOff off = some (q, o)) : p.rcClear off = p.onSeq q (Seq.clearAt o) := by
  unfold Part.rcClear
  rw [h]
  rcases ho with rfl | rfl <;> rfl

theorem rcClear_ws (hw : w < 8) (ho : o = 0x44 ∨ o = 0x48 ∨ o = 0x4C ∨ o = 0x50) (h : off = 0x8000 + 0x400 * w + o) :
    p.rcClear off = p.onWs w (Ws.clearAt o) := by
  have hd : (off - 0x8000) / 0x400 = w := by omega
  have hm : off % 0x400 = o := by omega
  unfold Part.rcClear
  rw [seqOfOff_outside (by omega) (by omega)]
  simp only [hd, hm]
  rw [if_neg (by omega), if_neg (by omega), if_pos (by omega)]
  rcases ho with rfl | rfl | rfl | rfl <;> rfl

/-- A peak goes to the occupancy (R340). -/
theorem rcClear_peak (hk : k < 16) (h : off = 0x110C + 0x10 * k) :
    p.rcClear off = p.onLarder fun l => { l with peak := l.peak.set k (l.occ.getD k 0) } := by
  have hd : (off - 0x1100) / 0x10 = k := by omega
  unfold Part.rcClear
  rw [seqOfOff_outside (by omega) (by omega)]
  simp only [hd]
  rw [if_pos (by omega)]

end Units

/-! ### Reads of the window -/

section Read
variable {s : State} {o : BitVec 20} {v : W32}

theorem busRead_open {p : Part} {off : Nat} (hopen : p.shut = false) (hr : p.regRead off = some v) :
    p.busRead off = ((p.latchHigh off).rcClear off).onGlob fun g => { g with rdata := v } := by
  have h4 := regRead_aligned (Option.isSome_of_eq_some hr)
  rw [Part.busRead, if_neg (by omega), Part.windowRead, hopen, if_neg (by simp), hr]

/-- A read that latches nothing answers the register and clears it (R11). -/
theorem rcRead_becomes {x : Part} (hopen : s.part.shut = false) (off : Nat) (ho : o.toNat = off) (hp : s.part.pairAt off = none)
    (hr : s.part.regRead off = some v) (hc : s.part.rcClear off = x) :
    Becomes (.rcRead o) s { x with glob := { x.glob with rdata := v } } := by
  have hb : s.part.busRead off = { x with glob := { x.glob with rdata := v } } := by
    rw [busRead_open hopen hr, Part.latchHigh, hp, hc]
    rfl
  show State.run s (fun p => (p.busRead o.toNat).finish) = _
  rw [State.run, ho, hb]

theorem countRead_becomes {x : Part} (hopen : s.part.shut = false) (off : Nat) (hp : s.part.pairAt off = none) (hr : s.part.regRead off = some v)
    (hc : s.part.rcClear off = x) (hoff : off < 2 ^ 20 := by decide) :
    Becomes (.rcRead (BitVec.ofNat 20 off)) s { x with glob := { x.glob with rdata := v } } :=
  rcRead_becomes hopen off (toNat_offset hoff) hp hr hc

/-- The same of a register of 32 bits, by its unit's read. -/
theorem plainRead_becomes {x : Part} {off : Nat} (hopen : s.part.shut = false) (hoff : off < 2 ^ 20) (hp : PlainAt off)
    (hr : s.part.rdOne off = some v) (hc : s.part.rcClear off = x) :
    Becomes (.rcRead (BitVec.ofNat 20 off)) s { x with glob := { x.glob with rdata := v } } :=
  countRead_becomes hopen off (pairAt_none _ hp.notLow) ((regRead_plain _ hp).trans hr) hc hoff

end Read

section UnitReads
variable {s : State} {n k w o : Nat}

theorem portCount_read {v : W32} (hopen : s.part.shut = false) (hn : n < 64) {off : Nat} (ho : o = 0x0C ∨ o = 0x10 ∨ o = 0x14 ∨ o = 0x18)
    (h : off = 0x4000 + 0x100 * n + o) (hv : s.part.rdDp n o = some v) :
    Becomes (.rcRead (BitVec.ofNat 20 off)) s
      { s.part.onDp n (Dp.clearAt o) with glob := { s.part.glob with rdata := v } } :=
  plainRead_becomes hopen (by omega) (by unfold PlainAt LowHalf; omega) ((rdOne_port _ hn (by omega) h).trans hv) (rcClear_port _ hn ho h)

theorem seqCount_read {v : W32} {q off : Nat} (hopen : s.part.shut = false) (ho : o = 0x20 ∨ o = 0x24)
    (h : seqOfOff off = some (q, o)) (hv : (s.part.seq q).rd o = some v) :
    Becomes (.rcRead (BitVec.ofNat 20 off)) s { s.part.onSeq q (Seq.clearAt o) with glob := { s.part.glob with rdata := v } } := by
  have := seqOfOff_eq_some h
  exact plainRead_becomes hopen (by omega) (by unfold PlainAt LowHalf; omega) ((rdOne_seq _ h).trans hv) (rcClear_seq _ ho h)

theorem wsCount_read {v : W32} {off : Nat} (hopen : s.part.shut = false) (hw : w < 8) (ho : o = 0x44 ∨ o = 0x48 ∨ o = 0x4C ∨ o = 0x50)
    (h : off = 0x8000 + 0x400 * w + o) (hv : s.part.rdWs w o = some v) :
    Becomes (.rcRead (BitVec.ofNat 20 off)) s { s.part.onWs w (Ws.clearAt o) with glob := { s.part.glob with rdata := v } } :=
  plainRead_becomes hopen (by omega) (by unfold PlainAt LowHalf; omega) ((rdOne_ws _ hw (by omega) (by omega) h).trans hv) (rcClear_ws _ hw ho h)

theorem peak_read {off : Nat} (hopen : s.part.shut = false) (hk : k < 16) (h : off = 0x110C + 0x10 * k) :
    Becomes (.rcRead (BitVec.ofNat 20 off)) s
      { s.part with
        larder := { s.part.larder with peak := s.part.larder.peak.set k (s.part.larder.occ.getD k 0) }
        glob := { s.part.glob with rdata := w32 (s.part.larder.peak.getD k 0) } } :=
  plainRead_becomes hopen (by omega) (by unfold PlainAt LowHalf; omega)
    ((rdOne_larder _ (o := 0x10C + 0x10 * k) (by omega) (by omega)).trans (Larder.rd_peak _ hk rfl)) (rcClear_peak _ hk h)

end UnitReads

/-! ### Reads that latch (R12) -/

theorem fld_low_toNat (x : W64) : (w32 (fld x 0 32)).toNat = x.toNat % 2 ^ 32 := by
  simp [w32, fld_eq_div_mod]

theorem w32_fld_high (x : W64) : w32 (fld x 32 32) = BitVec.ofNat 32 (x.toNat / 2 ^ 32) := ofNat_fld x 32 32

/-- The halves of a quantity put together from two words. -/
theorem w32_fld_ofHalves_low (a b : W32) : w32 (fld (BitVec.ofNat 64 (a.toNat + b.toNat * 2 ^ 32)) 0 32) = a := by
  apply BitVec.eq_of_toNat_eq
  have ha := a.isLt
  have hb := b.isLt
  simp only [w32, fld_eq_div_mod, BitVec.toNat_ofNat]
  omega

theorem w32_fld_ofHalves_high (a b : W32) : w32 (fld (BitVec.ofNat 64 (a.toNat + b.toNat * 2 ^ 32)) 32 32) = b := by
  apply BitVec.eq_of_toNat_eq
  have ha := a.isLt
  have hb := b.isLt
  simp only [w32, fld_eq_div_mod, BitVec.toNat_ofNat]
  omega

/-- A read of a low half answers it and latches the high half, beside which it changes nothing. -/
theorem busRead_low {p : Part} {off : Nat} {x : Bool × W64} (hopen : p.shut = false) (h4 : off % 4 = 0) (h : p.pairAt off = some x)
    (hl : tabFind p.glob.lowHold off = none) :
    p.busRead off = p.onGlob fun g => { g with latch := tabInsert g.latch (off + 4) (w32 (fld x.2 32 32)), rdata := w32 (fld x.2 0 32) } := by
  have hr : p.regRead off = some (w32 (fld x.2 0 32)) := by rw [regRead_low h4 h, hl]; rfl
  rw [busRead_open hopen hr, rcClear_lowHalf _ (lowHalf_of_pairAt h), Part.latchHigh, h]
  rfl

/-- What a read latched is what the high half reads as, whatever else of the global group has changed but the times. -/
theorem regRead_latched {p t : Part} {off : Nat} {x : Bool × W64} {h : W32} (hframe : t = { p with glob := t.glob })
    (htime : t.glob.time = p.glob.time) (hstep : t.glob.stepTime = p.glob.stepTime) (h4 : off % 4 = 0) (hp : p.pairAt off = some x)
    (hl : tabFind t.glob.latch (off + 4) = some h) : t.regRead (off + 4) = some h := by
  rw [regRead_high h4 ((pairAt_congr hframe htime hstep off).trans hp), hl]
  rfl

end Sys2Proof.Machine

open Sys2Proof Sys2Proof.Machine

/-- Settles O15: a count is one register of 32 bits, which latches nothing; a low half is no count, and what it latches reads back. -/
theorem sideEffectsOfReads : Obligations.SideEffectsOfReads := by
  unfold Obligations.SideEffectsOfReads
  refine ⟨fun s ho => ?counts, fun s ho => ⟨fun off wr x h4 hp hl => ?low, fun h hh => ?latched, rfl, fun hl => ?calibration⟩⟩
  case counts =>
    intro p ok
    refine ⟨countRead_becomes ho 0x1008 rfl rfl rfl, countRead_becomes ho 0x100C rfl rfl rfl,
      countRead_becomes ho 0x1018 rfl rfl rfl, fun k hk => peak_read ho hk rfl, fun n hn => ⟨?_, ?_, ?_, ?_⟩,
      fun w hw => ⟨?_, ?_, ?_, ?_, ?_, ?_⟩, countRead_becomes ho 0xA420 rfl rfl rfl, countRead_becomes ho 0xA424 rfl rfl rfl,
      countRead_becomes ho 0xA02C rfl rfl rfl, countRead_becomes ho 0xA030 rfl rfl rfl, countRead_becomes ho 0xA034 rfl rfl rfl,
      countRead_becomes ho 0xA038 rfl rfl rfl, countRead_becomes ho 0xA03C rfl rfl rfl, countRead_becomes ho 0xA040 rfl rfl rfl,
      countRead_becomes ho 0xA044 rfl rfl rfl, countRead_becomes ho 0xB00C rfl rfl rfl, countRead_becomes ho 0xB010 rfl rfl rfl,
      countRead_becomes ho 0xC008 rfl rfl rfl, countRead_becomes ho 0xC00C rfl rfl rfl, countRead_becomes ho 0xC010 rfl rfl rfl,
      countRead_becomes ho 0xC014 rfl rfl rfl, countRead_becomes ho 0xC018 rfl rfl rfl, countRead_becomes ho 0xC01C rfl rfl rfl,
      countRead_becomes ho 0xD084 rfl rfl rfl, countRead_becomes ho 0xD088 rfl rfl rfl, countRead_becomes ho 0xD114 rfl rfl rfl,
      countRead_becomes ho 0xD11C rfl rfl rfl, countRead_becomes ho 0xD21C rfl rfl rfl, countRead_becomes ho 0xD334 rfl rfl rfl⟩
    · exact portCount_read ho hn (o := 0x0C) (by omega) (by omega) rfl
    · exact portCount_read ho hn (o := 0x10) (by omega) (by omega) rfl
    · exact portCount_read ho hn (o := 0x14) (by omega) (by omega) rfl
    · exact portCount_read ho hn (o := 0x18) (by omega) (by omega) rfl
    · exact seqCount_read ho (o := 0x20) (by omega) (seqOfOff_ws hw (by omega) (by omega)) rfl
    · exact seqCount_read ho (o := 0x24) (by omega) (seqOfOff_ws hw (by omega) (by omega)) rfl
    · exact wsCount_read ho hw (o := 0x44) (by omega) (by omega) rfl
    · exact wsCount_read ho hw (o := 0x48) (by omega) (by omega) rfl
    · exact wsCount_read ho hw (o := 0x4C) (by omega) (by omega) rfl
    · exact wsCount_read ho hw (o := 0x50) (by omega) (by omega) rfl
  case low =>
    refine ⟨_, rfl, rfl, rfl, rfl, ?_⟩
    simp only [doLowHalfRead, busRead_low ho h4 hp hl]
    exact ⟨fld_low_toNat x, regRead_latched (p := s.part) rfl rfl rfl h4 hp (by simp [tabFind_tabInsert, w32_fld_high]), rfl⟩
  case latched =>
    have hr : s.part.regRead 0x114 = some h := by
      rw [show (0x114 : Nat) = 0x110 + 4 from rfl, regRead_high rfl (show s.part.pairAt 0x110 = some _ from rfl), hh]
      rfl
    show State.run s (fun p => (p.busRead 0x114).finish) = _
    rw [State.run, busRead_open ho hr]
    rfl
  case calibration =>
    show State.run s (fun p => (p.busRead 0xC074).finish) = _
    rw [State.run, busRead_low ho rfl (show s.part.pairAt 0xC074 = some _ from rfl) hl, w32_fld_ofHalves_low, w32_fld_ofHalves_high]
    rfl
end

section
/-! PROOFS. The reset state. -/

open Sys2Proof Sys2Proof.Machine

/-- Settles O57: the reset state's tables are empty, so each unit reads as its own reset value. -/
theorem resetState : Obligations.ResetState := by
  unfold Obligations.ResetState
  refine ⟨rfl, rfl, rfl, rfl, rfl, rfl, rfl, rfl, rfl, rfl, rfl, rfl, rfl, rfl, rfl, rfl, fun _ _ => ⟨rfl, rfl, rfl⟩, fun _ _ => ⟨rfl, rfl⟩, rfl, rfl, rfl, rfl⟩
end

section
/-! PROOFS. What the operations of the window's own commands leave. -/

namespace Sys2Proof.Machine
open Sys2Proof

/-! ### What the window's own operations leave -/

/-- An access that R8 refuses, through the open window. -/
theorem Part.misaligned_open {p : Part} (hopen : p.shut = false) (off : Nat) (wr : Bool) :
    p.misaligned off wr = (if wr then p else p.onGlob fun g => { g with rdata := 0 }).accessErr 0 off wr := by
  have h : (if wr then p else p.onGlob fun g => { g with rdata := 0 }).shut = false := by cases wr <;> exact hopen
  exact whenOpen_eq h fun s => s.accessErr 0 off wr

theorem doUnmappedAccess_read {p : Part} {off : BitVec 20} (hn : p.regRead off.toNat = none) :
    doUnmappedAccess off false p = (p.onGlob fun g => { g with rdata := 0 }).finish := by
  simp [doUnmappedAccess, hn]

theorem doUnmappedAccess_write {p : Part} {off : BitVec 20} (hopen : p.shut = false) (hn : p.regRead off.toNat = none) :
    doUnmappedAccess off true p = (p.accessErr 1 off.toNat true).finish := by
  simp [doUnmappedAccess, hn, whenOpen_eq hopen]

/-- DATA3 is the top word of the sign vector (R348). -/
theorem fld_setFld_top (d : BitVec 128) (v : W32) : fld (setFld d 96 32 v.toNat) 96 32 = v.toNat := by
  have hd := d.isLt
  have hv := v.isLt
  simp only [setFld, fld_eq_div_mod, BitVec.toNat_ofNat]
  omega

theorem Part.routeData_route (p : Part) (v : W32) : tabGet (p.routeData v).gh.routes p.gh.routeIdx.toNat 0 = v &&& 0x1FF#32 :=
  (tabGet_tabSet _ _ _ _ _).trans (if_pos rfl)

theorem Part.roleData_gh (p : Part) (v : W32) :
    (p.roleData v).gh = { p.gh with roles := tabSet p.gh.roles p.gh.roleIdx.toNat (BitVec.ofNat 16 v.toNat) 0, roleIdx := p.gh.roleIdx + 1 } := by
  rw [Part.roleData, Part.mirror_eq, ofNat_fld_low]
  rfl

/-- A staged entry without a reserved value is committed (R346). -/
theorem Part.streamCommit_ssu {p : Part} (hrot : p.ssu.strData.rotN.toNat < 6) (hfb : p.ssu.strData.lodgeFb ≠ 1#2) :
    (p.streamCommit).ssu.streamsP = tabSet p.ssu.streamsP p.ssu.strIdx.toNat p.ssu.strData .reset ∧ (p.streamCommit).ssu.strIdx = p.ssu.strIdx + 1 := by
  have hres : p.ssu.strData.reservedValue = false := by simp [StreamEntry.reservedValue, hrot, hfb]
  unfold Part.streamCommit
  rw [if_neg (by simp [hres])]
  exact ⟨rfl, rfl⟩

theorem Part.signData3_sign (p : Part) (v : W32) :
    tabGet (p.signData3 v).ssu.signsP p.ssu.signIdx.toNat 0 = setFld p.ssu.signData 96 32 v.toNat :=
  (tabGet_tabSet _ _ _ _ _).trans (if_pos rfl)

theorem Part.mem_calHi_changed (p : Part) (v : W32) : p.ssu.calIdx.toNat ∈ (p.calHi v).ssu.calChanged := by
  show _ ∈ if p.ssu.calChanged.contains p.ssu.calIdx.toNat then p.ssu.calChanged else p.ssu.calIdx.toNat :: p.ssu.calChanged
  split
  next h => exact List.contains_iff_mem.1 h
  next => exact .head _

theorem Part.heartbeat_count (p : Part) (v : W32) : (p.heartbeat v).mb.hbCount = v := by
  unfold Part.heartbeat
  dsimp only [Part.onMb]
  split <;> rfl

/-- Where the Guestbook's ring lies, which entries leave alone (R310). -/
def Gb.SameRing (g h : Gb) : Prop := h.base = g.base ∧ h.size = g.size

theorem Part.ringWrite_sameRing (p : Part) (e : GuestEntry) : p.gb.SameRing (p.ringWrite e).gb := by
  unfold Part.ringWrite
  dsimp only [Part.onGb]
  rw [(Part.nocWrite_eq _ _ _ _ _).1, (Part.nocWrite_eq _ _ _ _ _).1, (Part.nocWrite_eq p _ _ _ _).1]
  exact ⟨rfl, rfl⟩

theorem Part.guestWrite_sameRing (p : Part) (e : GuestEntry) : p.gb.SameRing (p.guestWrite e).gb := by
  unfold Part.guestWrite
  split
  · dsimp only [Part.onGb]
    split <;> exact ⟨rfl, rfl⟩
  · exact p.ringWrite_sameRing e

theorem Part.gbFlush_sameRing (p : Part) : p.gb.SameRing p.gbFlush.gb := by
  have hall (es : List GuestEntry) : ∀ q : Part, q.gb.SameRing (q.each es Part.guestWrite).gb := by
    induction es with
    | nil => exact fun _ => ⟨rfl, rfl⟩
    | cons e es ih =>
      intro q
      obtain ⟨hb, hs⟩ := q.guestWrite_sameRing e
      obtain ⟨hb', hs'⟩ := ih (q.guestWrite e)
      exact ⟨hb'.trans hb, hs'.trans hs⟩
  unfold Part.gbFlush
  split
  · exact ⟨rfl, rfl⟩
  · exact hall _ (p.onGb fun g => { g with staged := [] })

theorem off47_of_lt {b : W64} (h : b.toNat < 2 ^ 47) : off47 b = b := by
  apply BitVec.eq_of_toNat_eq
  have := b.isLt
  simp only [off47, fld_eq_div_mod, BitVec.toNat_ofNat]
  omega

theorem and_0x1F_of_lt {z : W32} (h : z.toNat < 32) : z &&& 0x1F#32 = z := by
  rw [show (0x1F#32) = BitVec.ofNat 32 (2 ^ 5 - 1) from rfl, and_lowMask z (by omega)]
  apply BitVec.eq_of_toNat_eq
  simp only [w32, BitVec.toNat_ofNat]
  omega

end Sys2Proof.Machine

open Sys2Proof Sys2Proof.Machine

/-- Settles O18: each command lets its operation through the open window, whose result its lemma gives. -/
theorem windowCommandsComplete : Obligations.WindowCommandsComplete := by
  unfold Obligations.WindowCommandsComplete
  intro off r v base s ho p
  have hread {n : Nat} {x : W32} (h : p.regRead n = some x) : (p.busRead n).finish.glob.rdata = x := by
    rw [busRead_open ho h]; rfl
  refine ⟨⟨_, rfl, rfl, ?_⟩, ⟨_, rfl, rfl, ?_⟩, fun hn => ⟨⟨_, rfl, rfl, ?_⟩, _, rfl, rfl, ?_⟩, fun _ hr => ⟨⟨_, rfl, rfl, hread hr⟩, _, rfl, rfl, hread hr⟩,
    fun l hl => ⟨_, rfl, rfl, hread hl⟩, ⟨_, rfl, rfl, ?_⟩, ⟨_, rfl, rfl, ?_⟩, ⟨_, rfl, rfl, ?_⟩, ⟨_, rfl, rfl, ?_⟩, fun hrot hfb => ⟨_, rfl, rfl, ?_⟩,
    ⟨_, rfl, rfl, ?_⟩, ⟨_, rfl, rfl, ?_⟩, ⟨_, rfl, rfl, ?_⟩, ⟨_, rfl, rfl, ?_⟩, ⟨_, rfl, rfl, ?_⟩, fun hb hz => ⟨_, rfl, rfl, ?_⟩⟩
  · simp only [doMisalignedAccess, Part.misaligned_open ho]
    exact ⟨rfl, rfl⟩
  · simp only [doMisalignedAccess, Part.misaligned_open ho]
    exact ⟨rfl, rfl⟩
  · rw [doUnmappedAccess_read hn]
    exact ⟨rfl, rfl⟩
  · rw [doUnmappedAccess_write ho hn]
    rfl
  · simp only [doIrqSet, whenOpen_eq ho]
    exact ⟨rfl, rfl, rfl, rfl⟩
  · simp only [doRouteDataWrite, whenOpen_eq ho]
    exact ⟨p.routeData_route v, rfl⟩
  · simp only [doRoleDataWrite, whenOpen_eq ho, Part.finish_gh, Part.roleData_gh]
    exact ⟨(tabGet_tabSet _ _ _ _ _).trans (if_pos rfl), rfl⟩
  · simp only [doStreamIndexWrite, whenOpen_eq ho, ofNat_fld_low]
    rfl
  · simp only [doStreamCommit, whenOpen_eq ho]
    obtain ⟨hs, hi⟩ := Part.streamCommit_ssu hrot hfb
    exact ⟨(congrArg (tabGet · _ _) hs).trans ((tabGet_tabSet _ _ _ _ _).trans (if_pos rfl)), hi⟩
  · simp only [doSignIndexWrite, whenOpen_eq ho, ofNat_fld_low]
    rfl
  · simp only [doSignData3Write, whenOpen_eq ho]
    exact ⟨rfl, (congrArg (fld · 96 32) (p.signData3_sign v)).trans (fld_setFld_top _ v)⟩
  · simp only [doCalIndexWrite, whenOpen_eq ho, ofNat_fld_low]
    rfl
  · simp only [doCalHiWrite, whenOpen_eq ho]
    exact ⟨rfl, p.mem_calHi_changed v⟩
  · simp only [doHeartbeat, whenOpen_eq ho]
    exact p.heartbeat_count v
  · simp only [doGuestbookConfigure, whenOpen_eq ho, off47_of_lt hb, and_0x1F_of_lt hz]
    exact Part.gbFlush_sameRing (p.onGb fun g => { g with base := base, size := v })
end

section
/-! PROOFS. Writes by unit, the partition set (R340) and the Courier's lane (R26). -/

namespace Sys2Proof.Machine
open Sys2Proof

/-! ### Writes by unit -/

section Units
variable {n k w o off : Nat} (p : Part) (v : W32)

theorem wrOne_port (hn : n < 64) (ho : o < 0x100) (h : off = 0x4000 + 0x100 * n + o) : p.wrOne off v = p.wrDp n o v := by
  have hd : (off - 0x4000) / 0x100 = n := by omega
  have hm : off % 0x100 = o := by omega
  rw [Part.wrOne, seqOfOff_outside (by omega) (by omega)]
  simp only [hd, hm]
  rw [if_neg (by omega), if_neg (by omega), if_pos (by omega)]

theorem wrOne_seq {q : Nat} (h : seqOfOff off = some (q, o)) : p.wrOne off v = p.wrSeq q o v := by rw [Part.wrOne, h]

theorem wrOne_stallTmo (hw : w < 8) (h : off = 0x8000 + 0x400 * w + 0x40) :
    p.wrOne off v = p.onWs w fun y => { y with stallTmo := v } := by
  have hd : (off - 0x8000) / 0x400 = w := by omega
  rw [Part.wrOne, seqOfOff_outside (by omega) (by omega)]
  simp only [hd]
  rw [if_neg (by omega), if_neg (by omega), if_neg (by omega), if_pos (by omega), if_pos (by omega)]

theorem wrOne_larder (ho : o < 0x300) (h : off = 0x1000 + o) : p.wrOne off v = p.wrLarder o v := by
  have hd : off - 0x1000 = o := by omega
  rw [Part.wrOne, seqOfOff_outside (by omega) (by omega)]
  simp only [hd]
  rw [if_neg (by omega), if_pos (by omega)]

theorem wrLarder_floor (hk : k < 16) (h : off = 0x100 + 0x10 * k) :
    p.wrLarder off v = p.onLarder fun l => { l with pendingSet := { l.pendingSet with floors := l.pendingSet.floors.set k (fld v 0 16) } } := by
  have hd : (off - 0x100) / 0x10 = k := by omega
  have hm : off % 0x10 = 0 := by omega
  unfold Part.wrLarder
  simp only [if_pos (show 0x100 ≤ off ∧ off < 0x200 by omega), hd, hm]

theorem wrLarder_ceil (hk : k < 16) (h : off = 0x104 + 0x10 * k) :
    p.wrLarder off v = p.onLarder fun l => { l with pendingSet := { l.pendingSet with ceils := l.pendingSet.ceils.set k (fld v 0 16) } } := by
  have hd : (off - 0x100) / 0x10 = k := by omega
  have hm : off % 0x10 = 4 := by omega
  unfold Part.wrLarder
  simp only [if_pos (show 0x100 ≤ off ∧ off < 0x200 by omega), hd, hm]

theorem wrLarder_owners (hk : k < 10) (h : off = 0x200 + 4 * k) :
    p.wrLarder off v = p.onLarder fun l => { l with pendingSet := l.pendingSet.setOwners k v } := by
  have hd : (off - 0x200) / 4 = k := by omega
  unfold Part.wrLarder
  simp only [if_neg (show ¬ (0x100 ≤ off ∧ off < 0x200) by omega), if_pos (show 0x200 ≤ off ∧ off < 0x228 by omega), hd]

end Units

/-! ### The partition set (R340) -/

theorem getD_set {α : Type} (l : List α) (j i : Nat) (x d : α) : (l.set j x).getD i d = if i = j ∧ i < l.length then x else l.getD i d := by
  simp only [List.getD_eq_getElem?_getD, List.getElem?_set]
  by_cases hj : j = i
  · subst hj
    by_cases hl : j < l.length <;> simp [hl]
  · simp [hj, Ne.symm hj]

theorem length_foldl_set {α : Type} (g : Nat → α) (b : Nat) (l : List α) (m : Nat) :
    ((List.range m).foldl (fun o j => o.set (b + j) (g j)) l).length = l.length := by
  induction m with
  | zero => rfl
  | succ m ih => rw [List.range_succ, List.foldl_append]; simpa using ih

/-- Consecutive entries of a list set, those beyond its end ignored. -/
theorem getD_foldl_set {α : Type} (g : Nat → α) (d : α) (b : Nat) (l : List α) (i m : Nat) :
    ((List.range m).foldl (fun o j => o.set (b + j) (g j)) l).getD i d = if b ≤ i ∧ i < b + m ∧ i < l.length then g (i - b) else l.getD i d := by
  induction m with
  | zero => rw [if_neg (by omega)]; rfl
  | succ m ih =>
    rw [List.range_succ, List.foldl_append, List.foldl_cons, List.foldl_nil, getD_set, length_foldl_set, ih]
    by_cases h : i = b + m ∧ i < l.length
    · obtain ⟨rfl, hl⟩ := h
      rw [if_pos ⟨rfl, hl⟩, if_pos (by omega), Nat.add_sub_cancel_left]
    · have hiff : (b ≤ i ∧ i < b + m ∧ i < l.length) ↔ (b ≤ i ∧ i < b + (m + 1) ∧ i < l.length) := by omega
      rw [if_neg h]
      simp only [hiff]

/-- An owner word sets the eight owners it holds. -/
theorem PartSet.setOwners_owner (p : PartSet) (k : Nat) (v : W32) (i : Nat) :
    (p.setOwners k v).owners.getD i 0 = if i / 8 = k ∧ i < p.owners.length then fld v (4 * (i % 8)) 4 else p.owners.getD i 0 := by
  refine (getD_foldl_set (fun j => fld v (4 * j) 4) 0 (8 * k) p.owners i 8).trans ?_
  by_cases h : i / 8 = k ∧ i < p.owners.length
  · rw [if_pos h, if_pos (by omega), show i - 8 * k = i % 8 by omega]
  · rw [if_neg h, if_neg (by omega)]

/-! ### The Courier's lane (R26) -/

theorem Part.linkWoken_eq (p : Part) (g : Nat) :
    p.linkWoken g = { p with out := (if (p.lg g).lowPower then [Emit.wakeReq g] else []) ++ p.out } := by
  unfold Part.linkWoken
  split <;> rfl

theorem Part.courierCtrl_off (p : Part) {v : W32} (h : bitOf v 0 = false) : p.courierCtrl v = p.onCr fun c => { c with en := false } := by
  unfold Part.courierCtrl Part.courierWakes
  rw [h]
  rfl

/-- What an enabled Courier does to its lane: the request for the low-power state is withdrawn, a link that sleeps woken. -/
def Part.laneKept (p : Part) (g : Nat) : Part := (p.onLg g fun l => { l with lpReq := false }).linkWoken g

theorem Part.courierCtrl_on (p : Part) {v : W32} (h : bitOf v 0 = true) :
    p.courierCtrl v = (p.onCr fun c => { c with en := true }).each ((List.range 2).filter p.courierLanes) Part.laneKept := by
  unfold Part.courierCtrl Part.courierWakes
  rw [h]
  rfl

/-- The lane changed, what has been sent, and nothing else. -/
theorem Part.laneKept_eq (p : Part) (g : Nat) :
    p.laneKept g =
      { p with
        gh := { p.gh with lgs := tabMod p.gh.lgs g .reset fun l => { l with lpReq := false } }
        out := (if (p.lg g).lowPower then [Emit.wakeReq g] else []) ++ p.out } := by
  have h : ((p.onLg g fun l => { l with lpReq := false }).lg g).lowPower = (p.lg g).lowPower := by rw [Part.lg_onLg, if_pos rfl]
  rw [Part.laneKept, Part.linkWoken_eq, h]
  rfl

end Sys2Proof.Machine
end

section
/-! PROOFS. The 64-bit quantities that software writes (R12). -/

namespace Sys2Proof.Machine
open Sys2Proof

/-! ### 64-bit quantities by unit (R12) -/

section Pairs
variable {n c r q w off : Nat} (p : Part)

/-- The registers of a drain context that hold die offsets (R143). -/
abbrev ctxPairs : List Nat := [0x00, 0x08, 0x10, 0x18, 0x20, 0x28]

theorem DrainCtx.pair_eq_some (k : DrainCtx) (hr : r ∈ ctxPairs) : k.pair r = some ((k.pair r).getD 0) := by
  simp only [List.mem_cons, List.not_mem_nil, or_false] at hr
  rcases hr with rfl | rfl | rfl | rfl | rfl | rfl <;> rfl

theorem DrainCtx.pair_setPair (k : DrainCtx) (b : W64) (hr : r ∈ ctxPairs) : (k.setPair r b).pair r = some b := by
  simp only [List.mem_cons, List.not_mem_nil, or_false] at hr
  rcases hr with rfl | rfl | rfl | rfl | rfl | rfl <;> rfl

theorem ctxPairs_bound (hr : r ∈ ctxPairs) : r ≤ 0x28 ∧ r % 8 = 0 := by
  simp only [List.mem_cons, List.not_mem_nil, or_false] at hr
  omega

theorem dpOfOff_ctx (hn : n < 64) (hc : c < 3) (hr : r ∈ ctxPairs) (h : off = 0x4040 + 0x100 * n + 0x40 * c + r) :
    dpOfOff off = some (n, 0x40 * (c + 1) + r) := by
  have := ctxPairs_bound hr
  exact dpOfOff_port hn (by omega) (by omega)

theorem pairAt_ctx (hn : n < 64) (hc : c < 3) (hr : r ∈ ctxPairs) (h : off = 0x4040 + 0x100 * n + 0x40 * c + r) :
    p.pairAt off = some (true, (((p.dp n).ctxK c).pair r).getD 0) := by
  obtain ⟨hr', -⟩ := ctxPairs_bound hr
  have hd : (0x40 * (c + 1) + r) / 0x40 - 1 = c := by omega
  have hm : (0x40 * (c + 1) + r) % 0x40 = r := by omega
  unfold Part.pairAt
  rw [dpOfOff_ctx hn hc hr h]
  simp only [hd, hm, if_neg (show ¬ 0x40 * (c + 1) + r < 0x40 by omega)]
  rw [DrainCtx.pair_eq_some _ hr]
  rfl

theorem setPair_ctx (b : W64) (hn : n < 64) (hc : c < 3) (hr : r ∈ ctxPairs) (h : off = 0x4040 + 0x100 * n + 0x40 * c + r) :
    p.setPair off b = p.onDp n fun d => d.onCtxK c fun k => k.setPair r (off47 b) := by
  obtain ⟨hr', -⟩ := ctxPairs_bound hr
  have hd : (0x40 * (c + 1) + r) / 0x40 - 1 = c := by omega
  have hm : (0x40 * (c + 1) + r) % 0x40 = r := by omega
  unfold Part.setPair
  rw [dpOfOff_ctx hn hc hr h]
  simp only [hd, hm]

theorem pairAt_src (h : seqOfOff off = some (q, 0x10)) : p.pairAt off = some (true, (p.seq q).srcReg) := by
  have := seqOfOff_eq_some h
  unfold Part.pairAt
  rw [dpOfOff_outside (by omega), h]
  rfl

theorem setPair_src (b : W64) (h : seqOfOff off = some (q, 0x10)) : p.setPair off b = p.onSeq q fun x => { x with srcReg := off47 b } := by
  have := seqOfOff_eq_some h
  unfold Part.setPair
  rw [dpOfOff_outside (by omega), h]

theorem pairAt_winBase (hw : w < 32) (h : off = 0xA100 + 0x10 * w) : p.pairAt off = some (true, (tabGet p.gh.wins w .reset).base) := by
  have hd : (off - 0xA100) / 16 = w := by omega
  unfold Part.pairAt
  rw [dpOfOff_outside (by omega), seqOfOff_outside (by omega) (by omega)]
  simp only [hd]
  rw [if_neg (by omega), if_pos (by omega), if_pos (by omega)]

theorem pairAt_winLimit (hw : w < 32) (h : off = 0xA108 + 0x10 * w) : p.pairAt off = some (true, (tabGet p.gh.wins w .reset).limit) := by
  have hd : (off - 0xA100) / 16 = w := by omega
  unfold Part.pairAt
  rw [dpOfOff_outside (by omega), seqOfOff_outside (by omega) (by omega)]
  simp only [hd]
  rw [if_neg (by omega), if_pos (by omega), if_neg (by omega)]

theorem setPair_winBase (b : W64) (hw : w < 32) (h : off = 0xA100 + 0x10 * w) :
    p.setPair off b = p.onGh fun g => { g with wins := tabMod g.wins w .reset fun y => { y with base := b &&& 0x7FFFFFFFFFC7#64 } } := by
  have hd : (off - 0xA100) / 16 = w := by omega
  unfold Part.setPair
  rw [dpOfOff_outside (by omega), seqOfOff_outside (by omega) (by omega)]
  simp only [hd, if_pos (show off < 0xA300 by omega), if_pos (show off % 16 = 0 by omega)]

theorem setPair_winLimit (b : W64) (hw : w < 32) (h : off = 0xA108 + 0x10 * w) :
    p.setPair off b = p.onGh fun g => { g with wins := tabMod g.wins w .reset fun y => { y with limit := b &&& 0x7FFFFFFFFFC0#64 } } := by
  have hd : (off - 0xA100) / 16 = w := by omega
  unfold Part.setPair
  rw [dpOfOff_outside (by omega), seqOfOff_outside (by omega) (by omega)]
  simp only [hd, if_pos (show off < 0xA300 by omega), if_neg (show ¬ off % 16 = 0 by omega)]

end Pairs

/-- A die offset keeps 47 bits (log entry 35). -/
theorem off47_eq_and (b : W64) : off47 b = b &&& 0x7FFFFFFFFFFF := by
  apply BitVec.eq_of_toNat_eq
  rw [BitVec.toNat_and, show (0x7FFFFFFFFFFF : W64).toNat = 2 ^ 47 - 1 from rfl, Nat.and_two_pow_sub_one_eq_mod]
  have := b.isLt
  simp only [off47, fld_eq_div_mod, BitVec.toNat_ofNat]
  omega

theorem pairLow_window {off : Nat} (h : 0xA100 ≤ off ∧ off < 0xA300) : pairLow off = if off % 16 = 0 then 0xFFFFFFC7 else 0xFFFFFFC0 := if_pos h
theorem pairLow_outside {off : Nat} (h : ¬ (0xA100 ≤ off ∧ off < 0xA300)) : pairLow off = 0xFFFFFFFF := if_neg h

/-- A low half that waits is what it reads as, whatever else of the global group has changed but the times. -/
theorem regRead_waiting {p t : Part} {off : Nat} {x : Bool × W64} {h : W32} (hframe : t = { p with glob := t.glob })
    (htime : t.glob.time = p.glob.time) (hstep : t.glob.stepTime = p.glob.stepTime) (h4 : off % 4 = 0) (hp : p.pairAt off = some x)
    (hl : tabFind t.glob.lowHold off = some h) : t.regRead off = some h := by
  rw [regRead_low h4 ((pairAt_congr hframe htime hstep off).trans hp), hl]
  rfl

section Halves
variable {s : State} {off : Nat} {v : W32}

/-- What a write of a low half leaves: `m` are its bits that are not reserved. -/
def LowWaits (off : Nat) (m v : W32) (p t : Part) : Prop :=
  t.regRead off = some (v &&& m) ∧ ∃ l, t = { p with glob := { p.glob with lowHold := l, acted := t.glob.acted, evSeq := t.glob.evSeq } }

/-- The low half written waits and reads back (R12). -/
theorem lowHalf_waits {x : W64} {m : W32} (hopen : s.part.shut = false) (hcalm : s.part.Calm) (hoff : off < 2 ^ 20) (h4 : off % 4 = 0)
    (hp : s.part.pairAt off = some (true, x)) (hm : pairLow off = m) :
    Acts (.registerWrite (BitVec.ofNat 20 off) v) s (LowWaits off m v s.part) := by
  have hr : (s.part.regRead off).isSome = true := by rw [regRead_low h4 hp]; rfl
  refine (registerWrite_becomes hopen off (toNat_offset hoff) hr (regWrite_low v hp) hcalm rfl).acts ⟨?_, _, rfl⟩
  exact regRead_waiting (p := s.part) rfl rfl rfl h4 hp (by simp [tabFind_tabInsert, hm])

/-- A quantity of 64 bits that software writes: the part `put b` has it at `b`, `get` reads it, and a write of both halves puts the bits `m`. -/
structure Quantity (p : Part) (off : Nat) (m : W64) (get : Part → W64) (put : W64 → Part) : Prop where
  offset : off + 4 < 2 ^ 20 ∧ off % 4 = 0
  held : ∃ x, p.pairAt off = some (true, x)
  takes (g : Glob) (b : W64) : ({ p with glob := g } : Part).setPair off b = { put (b &&& m) with glob := g }
  reads (g : Glob) (b : W64) : get { put b with glob := g } = b
  calm (b : W64) : p.Calm → (put b).Calm
  boot (b : W64) : (put b).pwr = p.pwr

theorem eq_put_get {get : Part → W64} {put : W64 → Part} {t : Part} {b : W64} {g : Glob} (hg : get t = b) (ht : t = { put b with glob := g }) :
    t = { put (get t) with glob := g } := by
  rw [hg]; exact ht

/-- The high half written brings both into force at once (R12). -/
theorem Quantity.highHalf_written {m : W64} {get : Part → W64} {put : W64 → Part} (hq : Quantity s.part off m get put)
    (hopen : s.part.shut = false) (hcalm : s.part.Calm) (l : W32) (hl : tabFind s.part.glob.lowHold off = some l) :
    Acts (.registerWrite (BitVec.ofNat 20 (off + 4)) v) s fun t =>
      get t = BitVec.ofNat 64 (l.toNat + v.toNat * 2 ^ 32) &&& m ∧ tabFind t.glob.lowHold off = none
        ∧ t = { put (get t) with glob := { s.part.glob with lowHold := t.glob.lowHold, acted := t.glob.acted, evSeq := t.glob.evSeq } } := by
  obtain ⟨hlt, h4⟩ := hq.offset
  obtain ⟨x, hp⟩ := hq.held
  have hr : (s.part.regRead (off + 4)).isSome = true := by rw [regRead_high h4 hp]; rfl
  have hw := (regWrite_high v hp hl).trans (hq.takes { s.part.glob with lowHold := tabErase s.part.glob.lowHold off } _)
  refine (registerWrite_becomes hopen (off + 4) (toNat_offset hlt) hr hw (hq.calm _ hcalm) (congrArg Pwr.bootStep (hq.boot _))).acts
    ⟨hq.reads _ _, (tabFind_tabErase _ _ _).trans (if_pos rfl), eq_put_get (hq.reads _ _) rfl⟩

end Halves

end Sys2Proof.Machine
end

section
/-! PROOFS. Each such quantity, and the registers of 32 bits of Waystations, sequencers and drain ports. -/

namespace Sys2Proof.Machine
open Sys2Proof

/-! ### The quantities that software writes (R143, R225, R231, R287, R292) -/

section Quantities
variable (p : Part)

theorem quantity_ctx {n c r : Nat} (hn : n < 64) (hc : c < 3) (hr : r ∈ ctxPairs) :
    Quantity p (0x4040 + 0x100 * n + 0x40 * c + r) 0x7FFFFFFFFFFF (fun t => (((t.dp n).ctxK c).pair r).getD 0)
      (fun b => p.onDp n fun d => d.onCtxK c fun k => k.setPair r b) where
  offset := by have := ctxPairs_bound hr; omega
  held := ⟨_, pairAt_ctx p hn hc hr rfl⟩
  takes g b := by rw [setPair_ctx _ b hn hc hr rfl, off47_eq_and]; rfl
  reads g b := by
    have hd := (Part.dp_onDp p n n fun d => d.onCtxK c fun k => k.setPair r b).trans (if_pos rfl)
    refine (congrArg (fun d : Dp => ((d.ctxK c).pair r).getD 0) hd).trans ?_
    rw [Dp.ctxK_onCtxK, DrainCtx.pair_setPair _ b hr]
    rfl
  calm b h := h.onDp n _ (Dp.onCtxK_offers _ _ _)
  boot _ := rfl

theorem quantity_src {q off : Nat} (hoff : off + 4 < 2 ^ 20 ∧ off % 4 = 0) (h : seqOfOff off = some (q, 0x10)) :
    Quantity p off 0x7FFFFFFFFFFF (fun t => (t.seq q).srcReg) (fun b => p.onSeq q fun x => { x with srcReg := b }) where
  offset := hoff
  held := ⟨_, pairAt_src p h⟩
  takes g b := by rw [setPair_src _ b h, off47_eq_and]; rfl
  reads g b := congrArg Seq.srcReg ((Part.seq_onSeq p q q fun x => { x with srcReg := b }).trans (if_pos rfl))
  calm b hcalm := hcalm.onSeq q _ (hcalm.noPlaceWait (seqOfOff_lt h))
  boot _ := rfl

theorem quantity_winBase {w : Nat} (hw : w < 32) :
    Quantity p (0xA100 + 0x10 * w) 0x7FFFFFFFFFC7 (fun t => (tabGet t.gh.wins w .reset).base)
      (fun b => { p with gh := { p.gh with wins := tabMod p.gh.wins w .reset fun y => { y with base := b } } }) where
  offset := by omega
  held := ⟨_, pairAt_winBase p hw rfl⟩
  takes g b := setPair_winBase _ b hw rfl
  reads g b := congrArg ExpWin.base ((tabGet_tabMod p.gh.wins w w .reset fun y => { y with base := b }).trans (if_pos rfl))
  calm _ h := h
  boot _ := rfl

theorem quantity_winLimit {w : Nat} (hw : w < 32) :
    Quantity p (0xA108 + 0x10 * w) 0x7FFFFFFFFFC0 (fun t => (tabGet t.gh.wins w .reset).limit)
      (fun b => { p with gh := { p.gh with wins := tabMod p.gh.wins w .reset fun y => { y with limit := b } } }) where
  offset := by omega
  held := ⟨_, pairAt_winLimit p hw rfl⟩
  takes g b := setPair_winLimit _ b hw rfl
  reads g b := congrArg ExpWin.limit ((tabGet_tabMod p.gh.wins w w .reset fun y => { y with limit := b }).trans (if_pos rfl))
  calm _ h := h
  boot _ := rfl

theorem quantity_noteBase : Quantity p 0xD070 0x7FFFFFFFFFFF (fun t => t.mb.noteBase) (fun b => { p with mb := { p.mb with noteBase := b } }) where
  offset := by decide
  held := ⟨_, rfl⟩
  takes g b := by rw [← off47_eq_and]; rfl
  reads _ _ := rfl
  calm _ h := h
  boot _ := rfl

theorem quantity_ckpt : Quantity p 0xD220 0x7FFFFFFFFFFF (fun t => t.twin.ckpt) (fun b => { p with twin := { p.twin with ckpt := b } }) where
  offset := by decide
  held := ⟨_, rfl⟩
  takes g b := by rw [← off47_eq_and]; rfl
  reads _ _ := rfl
  calm _ h := h
  boot _ := rfl

end Quantities

/-! ### Registers of 32 bits, by unit -/

section UnitWrites
variable {s : State} {v : W32}

/-- A write of a register of 32 bits, which reads back what it took. -/
theorem plainWrite_reads {x : Part} {r : W32} {off : Nat} (hopen : s.part.shut = false) (hoff : off < 2 ^ 20) (hp : PlainAt off)
    (hr : (s.part.rdOne off).isSome = true) (hw : s.part.wrOne off v = x) (hcalm : x.Calm) (hboot : x.pwr = s.part.pwr)
    (hback : x.rdOne off = some r) : Becomes (.registerWrite (BitVec.ofNat 20 off) v) s x ∧ x.regRead off = some r :=
  registerWrite_reads hopen off ((regRead_plain _ hp).symm ▸ hr) ((regWrite_plain _ v hp).trans hw) hcalm (congrArg Pwr.bootStep hboot)
    ((regRead_plain _ hp).trans hback) hoff

theorem stallTmo_write {w : Nat} (hopen : s.part.shut = false) (hcalm : s.part.Calm) (hw : w < 8) :
    let x := s.part.onWs w fun y => { y with stallTmo := v }
    Becomes (.registerWrite (BitVec.ofNat 20 (0x8040 + 0x400 * w)) v) s x ∧ x.regRead (0x8040 + 0x400 * w) = some (v &&& 0xFFFFFFFF) := by
  have hrd (p : Part) : p.rdOne (0x8040 + 0x400 * w) = some (p.ws w).stallTmo := rdOne_ws p hw (o := 0x40) (by omega) (by omega) (by omega)
  refine plainWrite_reads hopen (by omega) (by unfold PlainAt LowHalf; omega) ?_ (wrOne_stallTmo _ v hw (by omega)) hcalm rfl ?_
  · rw [hrd]; rfl
  · rw [hrd, Part.ws_onWs, if_pos rfl, and_ones]

theorem lenReg_write {q off : Nat} (hopen : s.part.shut = false) (hcalm : s.part.Calm) (h : seqOfOff off = some (q, 0x0C)) :
    let x := s.part.onSeq q fun y => { y with lenReg := BitVec.ofNat 16 v.toNat }
    Becomes (.registerWrite (BitVec.ofNat 20 off) v) s x ∧ x.regRead off = some (v &&& 0xFFFF) := by
  have hoff := seqOfOff_eq_some h
  have hrd (p : Part) : p.rdOne off = some (w32 (p.seq q).lenReg.toNat) := rdOne_seq p h
  have hw : s.part.wrOne off v = s.part.onSeq q fun y => { y with lenReg := BitVec.ofNat 16 v.toNat } := by
    rw [wrOne_seq _ v h, ← ofNat_fld_low]; rfl
  refine plainWrite_reads hopen (by omega) (by unfold PlainAt LowHalf; omega) ?_ hw (hcalm.onSeq q _ (hcalm.noPlaceWait (seqOfOff_lt h))) rfl ?_
  · rw [hrd]; rfl
  · rw [hrd, Part.seq_onSeq, if_pos rfl]
    exact congrArg some (and_lowMask v (k := 16) (by omega)).symm

theorem pitch_write {n : Nat} (hopen : s.part.shut = false) (hcalm : s.part.Calm) (hn : n < 64) :
    let x := s.part.onDp n fun d => { d with ctx0 := { d.ctx0 with pitch := v &&& 0xFFFFFF } }
    Becomes (.registerWrite (BitVec.ofNat 20 (0x4070 + 0x100 * n)) v) s x ∧ x.regRead (0x4070 + 0x100 * n) = some (v &&& 0xFFFFFF) := by
  have hrd (p : Part) : p.rdOne (0x4070 + 0x100 * n) = some (p.dp n).ctx0.pitch := rdOne_port p hn (o := 0x70) (by omega) (by omega)
  refine plainWrite_reads hopen (by omega) (by unfold PlainAt LowHalf; omega) ?_ (wrOne_port _ v hn (o := 0x70) (by omega) (by omega))
    (hcalm.onDp n _ rfl) rfl ?_
  · rw [hrd]; rfl
  · rw [hrd, Part.dp_onDp, if_pos rfl]

end UnitWrites

end Sys2Proof.Machine
end

section
/-! PROOFS. Partitions and the Courier through the window, and the statement about register writes. -/

namespace Sys2Proof.Machine
open Sys2Proof

/-! ### Partitions and the Courier through the window -/

section Groups
variable {s : State} {v : W32} {k : Nat}

/-- Larder registers written: the Larder alone changes. -/
theorem larderWrite_becomes {o : Nat} {f : Larder → Larder} (hopen : s.part.shut = false) (hcalm : s.part.Calm) (ho : o < 0x300) (h4 : o % 4 = 0)
    (hr : (s.part.larder.rd o).isSome = true) (hw : s.part.wrLarder o v = s.part.onLarder f) :
    Becomes (.registerWrite (BitVec.ofNat 20 (0x1000 + o)) v) s (s.part.onLarder f) := by
  have hp : PlainAt (0x1000 + o) := by unfold PlainAt LowHalf; omega
  refine registerWrite_becomes hopen _ (toNat_offset (by omega)) ?_ ?_ hcalm rfl
  · rw [regRead_plain _ hp, rdOne_larder _ ho rfl, hr]
  · rw [regWrite_plain _ v hp, wrOne_larder _ v ho rfl, hw]

theorem larderRead {p : Part} {o : Nat} (ho : o < 0x300) (h4 : o % 4 = 0) : p.regRead (0x1000 + o) = p.larder.rd o := by
  rw [regRead_plain _ (by unfold PlainAt LowHalf; omega), rdOne_larder _ ho rfl]

theorem floor_write (hopen : s.part.shut = false) (hcalm : s.part.Calm) (hk : k < 16) :
    let p := s.part
    let f := p.onLarder fun l => { l with pendingSet := { l.pendingSet with floors := l.pendingSet.floors.set k (fld v 0 16) } }
    Becomes (.registerWrite (BitVec.ofNat 20 (0x1100 + 0x10 * k)) v) s f
      ∧ (p.larder.showActive = false → k < p.larder.pendingSet.floors.length → f.regRead (0x1100 + 0x10 * k) = some (v &&& 0xFFFF)) := by
  intro p f
  have he : 0x1100 + 0x10 * k = 0x1000 + (0x100 + 0x10 * k) := by omega
  have hrd (l : Larder) : l.rd (0x100 + 0x10 * k) = some (w32 (l.shown.floors.getD k 0)) := l.rd_floor hk rfl
  rw [he]
  refine ⟨larderWrite_becomes hopen hcalm (by omega) (by omega) (by rw [hrd]; rfl) (wrLarder_floor p v hk rfl), fun hshow hlen => ?_⟩
  have hshown : f.larder.shown.floors = p.larder.pendingSet.floors.set k (fld v 0 16) := by
    show (if p.larder.showActive then _ else _ : PartSet).floors = _
    rw [hshow]; rfl
  rw [larderRead (by omega) (by omega), hrd, hshown, getD_set, if_pos ⟨rfl, hlen⟩, w32_fld_low v (k := 16) (by omega)]
  rfl

theorem ceil_write (hopen : s.part.shut = false) (hcalm : s.part.Calm) (hk : k < 16) :
    let p := s.part
    let c := p.onLarder fun l => { l with pendingSet := { l.pendingSet with ceils := l.pendingSet.ceils.set k (fld v 0 16) } }
    Becomes (.registerWrite (BitVec.ofNat 20 (0x1104 + 0x10 * k)) v) s c
      ∧ (p.larder.showActive = false → k < p.larder.pendingSet.ceils.length → c.regRead (0x1104 + 0x10 * k) = some (v &&& 0xFFFF)) := by
  intro p c
  have he : 0x1104 + 0x10 * k = 0x1000 + (0x104 + 0x10 * k) := by omega
  have hrd (l : Larder) : l.rd (0x104 + 0x10 * k) = some (w32 (l.shown.ceils.getD k 0)) := l.rd_ceil hk rfl
  rw [he]
  refine ⟨larderWrite_becomes hopen hcalm (by omega) (by omega) (by rw [hrd]; rfl) (wrLarder_ceil p v hk rfl), fun hshow hlen => ?_⟩
  have hshown : c.larder.shown.ceils = p.larder.pendingSet.ceils.set k (fld v 0 16) := by
    show (if p.larder.showActive then _ else _ : PartSet).ceils = _
    rw [hshow]; rfl
  rw [larderRead (by omega) (by omega), hrd, hshown, getD_set, if_pos ⟨rfl, hlen⟩, w32_fld_low v (k := 16) (by omega)]
  rfl

theorem owners_write (hopen : s.part.shut = false) (hcalm : s.part.Calm) (hk : k < 10) :
    Becomes (.registerWrite (BitVec.ofNat 20 (0x1200 + 4 * k)) v) s
      (s.part.onLarder fun l => { l with pendingSet := l.pendingSet.setOwners k v }) := by
  have he : 0x1200 + 4 * k = 0x1000 + (0x200 + 4 * k) := by omega
  have hrd (l : Larder) : (l.rd (0x200 + 4 * k)).isSome = true := by
    unfold Larder.rd
    rw [if_neg (by omega), if_pos (by omega)]
    rfl
  rw [he]
  exact larderWrite_becomes hopen hcalm (by omega) (by omega) (hrd _) (wrLarder_owners _ v hk rfl)

/-- The lanes that an enabled Courier keeps awake: lane group 0, and lane group 1 while lane group 0 has no lane. -/
theorem courierCtrl_lanes (p : Part) (h : bitOf v 0 = true) :
    let q := p.onCr fun c => { c with en := true }
    p.courierCtrl v = if (p.lg 0).lanes = 0#4 then (q.laneKept 0).laneKept 1 else q.laneKept 0 := by
  intro q
  rw [p.courierCtrl_on h]
  by_cases hl : (p.lg 0).lanes = 0#4
  · have hf : (List.range 2).filter p.courierLanes = [0, 1] := by simp [List.range_succ, Part.courierLanes, hl]
    rw [hf, if_pos hl]
    rfl
  · have hf : (List.range 2).filter p.courierLanes = [0] := by simp [List.range_succ, Part.courierLanes, hl]
    rw [hf, if_neg hl]
    rfl

theorem Part.laneKept_lg (p : Part) (g n : Nat) : (p.laneKept g).lg n = if n = g then { p.lg g with lpReq := false } else p.lg n := by
  rw [Part.laneKept_eq]
  exact tabGet_tabMod p.gh.lgs g n LaneGroup.reset fun l => { l with lpReq := false }

theorem Part.laneKept_out (p : Part) (g : Nat) : (p.laneKept g).out = (if (p.lg g).lowPower then [Emit.wakeReq g] else []) ++ p.out := by
  rw [Part.laneKept_eq]

theorem courierCtrl_frame (p : Part) (h : bitOf v 0 = true) :
    ∃ lgs out, p.courierCtrl v = { p with courier := { p.courier with en := true }, gh := { p.gh with lgs := lgs }, out := out } := by
  rw [courierCtrl_lanes p h]
  split
  · rw [Part.laneKept_eq, Part.laneKept_eq]
    exact ⟨_, _, rfl⟩
  · rw [Part.laneKept_eq]
    exact ⟨_, _, rfl⟩

theorem courierCtrl_lg (p : Part) (h : bitOf v 0 = true) (g : Nat) :
    (p.courierCtrl v).lg g = if p.courierLanes g then { p.lg g with lpReq := false } else p.lg g := by
  have hq (n : Nat) : (p.onCr fun c => { c with en := true }).lg n = p.lg n := rfl
  rw [courierCtrl_lanes p h]
  by_cases hl : (p.lg 0).lanes = 0#4
  · rw [if_pos hl]
    simp only [Part.laneKept_lg, hq, Part.courierLanes, hl]
    by_cases h0 : g = 0
    · subst h0; simp [hl]
    · by_cases h1 : g = 1
      · subst h1; simp
      · simp [h0, h1]
  · rw [if_neg hl]
    simp only [Part.laneKept_lg, hq, Part.courierLanes, hl]
    by_cases h0 : g = 0
    · subst h0; simp
    · simp [h0]

theorem courierCtrl_out (p : Part) (h : bitOf v 0 = true) :
    (p.courierCtrl v).out = (([1, 0].filter fun g => p.courierLanes g && (p.lg g).lowPower).map Emit.wakeReq) ++ p.out := by
  have hq (n : Nat) : (p.onCr fun c => { c with en := true }).lg n = p.lg n := rfl
  have hout : (p.onCr fun c => { c with en := true }).out = p.out := rfl
  rw [courierCtrl_lanes p h]
  by_cases hl : (p.lg 0).lanes = 0#4
  · rw [if_pos hl]
    simp only [Part.laneKept_out, Part.laneKept_lg, hq, hout, Part.courierLanes, hl]
    cases h0 : (p.lg 0).lowPower <;> cases h1 : (p.lg 1).lowPower <;> simp [h0, h1]
  · rw [if_neg hl]
    simp only [Part.laneKept_out, hq, hout, Part.courierLanes, hl]
    cases h0 : (p.lg 0).lowPower <;> simp [h0]

theorem bitIf_eq_b2n (b : Bool) (i : Nat) : bitIf b i = b2n b * 2 ^ i := by
  cases b <;> simp [bitIf, b2n]

/-- WL_GH_IDENT reads as it was written, the die number standing (R225). -/
theorem ident_word (v : W32) :
    w32 (Config.die.toNat + (BitVec.ofNat 14 (fld v 2 14)).toNat * 4 + bitIf (bitOf v 16) 16)
      = BitVec.ofNat 32 (Config.die.toNat + fld v 2 14 * 4 + b2n (bitOf v 16) * 2 ^ 16) := by
  have hlt : fld v 2 14 < 2 ^ 14 := Nat.mod_lt _ (by decide)
  rw [BitVec.toNat_ofNat, Nat.mod_eq_of_lt hlt, bitIf_eq_b2n]
  rfl

end Groups

end Sys2Proof.Machine

open Sys2Proof Sys2Proof.Machine

/-- Settles O12. A plain register changes one field and reads it back; a low half waits; its high half brings a `Quantity` into force. -/
theorem registerWrites : Obligations.RegisterWrites := by
  unfold Obligations.RegisterWrites
  refine ⟨fun v s ho hc => ?plain, fun v s ho hc => ?halves⟩
  case plain =>
    intro p ok
    have ones : some v = some (v &&& 0xFFFFFFFF) := congrArg some (and_ones v).symm
    have low {k : Nat} (hk : k ≤ 32) : some (w32 (v.toNat % 2 ^ k)) = some (v &&& BitVec.ofNat 32 (2 ^ k - 1)) := congrArg some (and_lowMask v hk).symm
    have bit : some (w32 (b2n (bitOf v 0))) = some (v &&& 1) := congrArg some (w32_b2n_bit0 v)
    refine ⟨registerWrite_reads ho 0x124 rfl rfl hc rfl ones, registerWrite_reads ho 0x204 rfl rfl hc rfl rfl,
      registerWrite_reads ho 0xA000 rfl (by rw [← ofNat_fld_low]; rfl) hc rfl (low (k := 8) (by omega)),
      registerWrite_becomes ho 0xA008 rfl rfl rfl hc rfl, ?ident, fun k hk => ?partition, fun k hk => ?owners,
      registerWrite_reads ho 0xA014 rfl (by rw [← ofNat_fld_low]; rfl) hc rfl (low (k := 15) (by omega)),
      registerWrite_reads ho 0xA01C rfl (by rw [← ofNat_fld_low]; rfl) hc rfl (low (k := 17) (by omega)),
      registerWrite_reads ho 0xA024 rfl rfl hc rfl ones, registerWrite_reads ho 0xA028 rfl rfl hc rfl ones, ?epoch, fun h0 => ?courierOff,
      registerWrite_reads ho 0xB004 rfl rfl hc rfl ones, registerWrite_reads ho 0xC004 rfl rfl hc rfl ones,
      registerWrite_reads ho 0xC028 rfl rfl hc rfl bit,
      registerWrite_reads ho 0xC080 rfl (by rw [← ofNat_fld_low]; rfl) hc rfl (low (k := 12) (by omega)),
      registerWrite_reads ho 0x1000 rfl rfl hc rfl bit, registerWrite_reads ho 0xD078 rfl rfl hc rfl rfl,
      registerWrite_reads ho 0xD080 rfl rfl hc rfl ones, registerWrite_reads ho 0xD110 rfl rfl hc rfl ones,
      registerWrite_reads ho 0xD118 rfl rfl hc rfl rfl, registerWrite_reads ho 0xD200 rfl rfl hc rfl (congrArg some (w32_bits01 v)),
      registerWrite_reads ho 0xD208 rfl rfl hc rfl ones, registerWrite_reads ho 0xD20C rfl rfl hc rfl ones,
      registerWrite_reads ho 0xD308 rfl rfl hc rfl ones, registerWrite_reads ho 0xD30C rfl rfl hc rfl ones,
      registerWrite_reads ho 0xD310 rfl rfl hc rfl ones, registerWrite_reads ho 0xD314 rfl rfl hc rfl ones,
      registerWrite_reads ho 0xD318 rfl rfl hc rfl ones, registerWrite_reads ho 0xD330 rfl rfl hc rfl ones,
      fun w hw => stallTmo_write ho hc hw, fun q hq => lenReg_write ho hc (seqOfOff_ws hq (by omega) (by omega)),
      lenReg_write ho hc (q := 8) rfl, fun n hn => pitch_write ho hc hn, fun h1 => ?courierOn⟩
    case ident => exact congrArg some (ident_word v)
    case partition =>
      obtain ⟨hf, hfr⟩ := floor_write (v := v) ho hc hk
      obtain ⟨hcl, hclr⟩ := ceil_write (v := v) ho hc hk
      exact ⟨hf, hcl, hfr, hclr⟩
    case owners => exact (owners_write ho hc hk).acts ⟨fun i => PartSet.setOwners_owner _ k v i, rfl, rfl⟩
    case epoch =>
      refine registerWrite_reads ho 0xA010 rfl ?_ hc rfl (congrArg some ((w32_halves v).trans (and_ones v).symm))
      rw [← ofNat_fld_low, ← ofNat_fld]
      rfl
    case courierOff =>
      rw [h0] at bit
      exact registerWrite_reads ho 0xB000 rfl (p.courierCtrl_off h0) hc rfl bit
    case courierOn =>
      obtain ⟨lgs, out, hx⟩ := courierCtrl_frame p h1
      have hlg := courierCtrl_lg p h1
      have hout := courierCtrl_out p h1
      rw [hx] at hlg hout
      exact (registerWrite_becomes ho 0xB000 rfl rfl hx hc rfl).acts ⟨rfl, hlg, hout, rfl, rfl⟩
  case halves =>
    intro p low high
    refine ⟨lowHalf_waits ho hc (by decide) rfl rfl rfl, lowHalf_waits ho hc (by decide) rfl rfl rfl, fun q hq => ?_,
      lowHalf_waits ho hc (by decide) rfl rfl rfl, fun w hw => ⟨?_, ?_⟩, fun n hn c hc' r hr => ⟨?_, ?_⟩,
      fun w hw => ⟨(quantity_winBase p hw).highHalf_written ho hc, (quantity_winLimit p hw).highHalf_written ho hc⟩,
      (quantity_noteBase p).highHalf_written ho hc, (quantity_ckpt p).highHalf_written ho hc, fun q hq => ?_⟩
    · exact lowHalf_waits ho hc (by omega) (by omega) (pairAt_src p (seqOfOff_ws hq (by omega) (by omega))) (pairLow_outside (by omega))
    · exact lowHalf_waits ho hc (by omega) (by omega) (pairAt_winBase p hw rfl) ((pairLow_window (by omega)).trans (if_pos (by omega)))
    · exact lowHalf_waits ho hc (by omega) (by omega) (pairAt_winLimit p hw rfl) ((pairLow_window (by omega)).trans (if_neg (by omega)))
    · obtain ⟨hb, h8⟩ := ctxPairs_bound hr
      exact lowHalf_waits ho hc (by omega) (by omega) (pairAt_ctx p hn hc' hr rfl) (pairLow_outside (by omega))
    · exact (quantity_ctx p hn hc' hr).highHalf_written ho hc
    · exact (quantity_src p (by omega) (seqOfOff_ws hq (by omega) (by omega))).highHalf_written ho hc
end

section
/-! PROOFS. A tile that waits for the other of its pair (R111, log entry 12). -/

namespace Sys2Proof.Machine
open Sys2Proof

/-! ### Credits held back -/

/-- Of the part the lane groups alone change. -/
def Part.LanesOnly (s t : Part) : Prop := t = { s with gh := { s.gh with lgs := t.gh.lgs } }

theorem Part.LanesOnly.trans {s t u : Part} (h : s.LanesOnly t) (h' : t.LanesOnly u) : s.LanesOnly u := by
  unfold Part.LanesOnly at *
  rw [h', h]

theorem Part.LanesOnly.onLg (s : Part) (n : Nat) (f : LaneGroup → LaneGroup) : s.LanesOnly (s.onLg n f) := rfl

theorem Part.LanesOnly.each {α : Type} {f : Part → α → Part} (hf : ∀ (s : Part) (a : α), s.LanesOnly (f s a)) (l : List α) (s : Part) : s.LanesOnly (s.each l f) := by
  induction l generalizing s with
  | nil => rfl
  | cons a l ih => exact (hf s a).trans (ih (f s a))

/-- Credits owed again change the lane groups they belong to (R203). -/
theorem Part.creditsFree_lanesOnly (s : Part) : s.LanesOnly s.creditsFree := by
  refine .each (fun s g => .each (fun s v => ?_) _ s) _ s
  dsimp only
  split
  · rfl
  · exact .onLg s g _

/-! ### Where a landing is refused -/

section Refusal
variable {s : Part} {l : Landing} (hown : l.dst = s.ownId)
include hown

/-- A response lands without a window (R195, R215). -/
theorem Part.landRefusal_getrsp (ht : l.ftype = .getrsp) (ws : List (Nat × List Byte)) : s.landRefusal l ws = none := by
  simp [Part.landRefusal, hown, ht]

/-- With no window at all every other landing is refused (R195). -/
theorem Part.landRefusal_noWindow (ht : l.ftype ≠ .getrsp) (hwins : s.gh.wins = []) (ws : List (Nat × List Byte)) : s.landRefusal l ws = some 1 := by
  have hshut (lo hi : Nat) : s.windowOk s.ownId true lo hi = false := by
    simp [Part.windowOk, hwins, bitOf, ExpWin.reset]
  simp [Part.landRefusal, hown, ht, hshut]

end Refusal

theorem Part.arrives_noXfers {s : Part} {t : FType} (hx : s.gh.xfers = []) (ht : t ≠ .arrive) (h : BitVec 256) : s.arrives t h = false := by
  unfold Part.arrives
  split
  · exact absurd rfl ht
  · rw [hx]; rfl
  · rfl

/-- A tile bound for die memory whose landing is refused waits for no other. -/
theorem Part.needsHalf_refused {s : Part} {l : Landing} (harr : s.arrives l.ftype l.hdr = false)
    (href : (s.landRefusal l (s.landWrites false l).1).isNone = false) : s.needsHalf l false = false := by
  simp [Part.needsHalf, harr, href]

/-- A response to be widened needs the other tile of its pair whatever the windows say (R111, R195). -/
theorem Part.needsHalf_getrsp {s : Part} {l : Landing} (hown : l.dst = s.ownId) (ht : l.ftype = .getrsp) (harr : s.arrives l.ftype l.hdr = false)
    (hother : l.other = none) (hblock : (s.inSet l.ftype l.hdr).1.rotBlock = 256) (hunit : Mh.unitElems l.hdr = 128)
    (hwiden : landsNarrow l.hdr (msgUnits l.hdr l.body) = false)
    (hrot : ((msgUnits l.hdr l.body).any fun u =>
      u.led.rotated && !mismatch (s.inSet l.ftype l.hdr).1 (unitIn (s.inSet l.ftype l.hdr).1 l.hdr u).1.led) = true) :
    s.needsHalf l false = true := by
  simp only [Part.needsHalf, harr, hother, hblock, hunit, hwiden, hrot, Part.landRefusal_getrsp hown ht]
  rfl

/-! ### The wait for the other tile -/

/-- The landing that a whole message opens, its last flit having come now. -/
def Part.landingOf (s : Part) (t : FType) (m : RxMsg) : Landing :=
  { id := s.nextId, src := m.src, dst := m.dst, lg := m.lg.val, msgid := m.msgid, ftype := t, hdr := m.hdr, body := m.body, buf := none, waitBuf := false,
    waitVerdict := false, waitResend := false, since := s.now, nocDue := 0, nocErr := false, started := false }

/-- A landing waits alone for the other tile of its pair, none of its writes begun; the buffer it asks for has the number after its own; and
nothing waits for the end of the command that did not wait before. -/
structure Part.HalfWaits (s t : Part) : Prop where
  landing : ∃ l, t.gh.landings = [l] ∧ l.waitHalf = true ∧ l.started = false
  request : ∃ r, t.larder.queue = s.larder.queue ++ [r] ∧ r.id = s.nextId + 1
  calm : s.Calm → t.Calm

/-- Lane groups have no part in the wait. -/
theorem Part.HalfWaits.lanesOnly {s t u : Part} (h : s.HalfWaits t) (hu : t.LanesOnly u) : s.HalfWaits u := by
  obtain ⟨hland, hreq, hcalm⟩ := h
  rw [hu]
  exact ⟨hland, hreq, fun hs => (hcalm hs).congr rfl rfl rfl rfl rfl rfl⟩

/-- Nor has the stamp of the command. -/
theorem Part.HalfWaits.settle {s t : Part} (h : s.HalfWaits t) (hs : s.Calm) : s.HalfWaits t.settle := by
  obtain ⟨hland, hreq, hcalm⟩ := h
  rw [settle_calm (hcalm hs)]
  exact ⟨hland, hreq, fun hs => (hcalm hs).congr rfl rfl rfl rfl rfl rfl⟩

/-- The request of such a wait is not the one that `Asked` speaks of, which bears the number that the landing has taken. -/
theorem Part.HalfWaits.not_asked {s t : Part} (h : s.HalfWaits t) (consumer credits : Nat) : ¬ s.Asked t consumer credits := by
  obtain ⟨-, ⟨r, hq, hid⟩, -⟩ := h
  rintro ⟨r', hq', hid', -⟩
  have hr : r = r' := by simpa [hq] using hq'
  subst hr
  omega

/-- A message of which no flit is known to have come is taken at once (R218). -/
theorem Part.takeMsg_fresh {s : Part} {m : RxMsg} (h : s.findAsm m.lg.val m.src m.msgid = none) (t : FType) :
    s.takeMsg t m = ((s.claimAsm m.lg.val m.src m.msgid).2.acceptMsg t m none s.now).creditsFree := by
  simp [Part.takeMsg, Part.fateOf, Part.claimAsm, h]

theorem Part.acceptMsg_data {t : FType} (h : t ≠ .getreq) (s : Part) (m : RxMsg) (pre : Option Nat) (last : Nat) :
    s.acceptMsg t m pre last = s.acceptData t m pre last := by
  unfold Part.acceptMsg
  split
  · exact absurd rfl h
  · rfl

/-- Neither the power block nor the lane groups decide whether a tile needs the other of its pair. -/
theorem Part.needsHalf_lanes (s : Part) (pw : Pwr) (lgs : Tab LaneGroup) (l : Landing) (resend : Bool) :
    ({ s with pwr := pw, gh := { s.gh with lgs := lgs } } : Part).needsHalf l resend = s.needsHalf l resend := rfl

/-- What a tile for die memory brings that needs the other of its pair where none waits (R111): a header that R201 allows, and no demand
for a verdict. -/
structure Part.LoneHalf (s : Part) (t : FType) (m : RxMsg) : Prop where
  hdr : hdrOk false m.hdr m.body = true
  noVerdict : Mh.vreq m.hdr = false
  memory : s.arrives t m.hdr = false
  noLanding : s.gh.landings = []
  needs : s.needsHalf (s.landingOf t m) false = true

theorem Part.acceptData_halfWaits {s : Part} {t : FType} {m : RxMsg} (h : s.LoneHalf t m) (last : Nat) : s.HalfWaits (s.acceptData t m none last) := by
  obtain ⟨hok, hv, harr, hland, hneeds⟩ := h
  obtain ⟨l, hl⟩ : ∃ l : Landing, l = { s.landingOf t m with lg := if s.answers m.src then 8 else m.lg.val, since := last } := ⟨_, rfl⟩
  have hacc : s.acceptData t m none last = ({ s with nextId := s.nextId + 1 } : Part).land l false none := by
    subst hl
    simp [Part.acceptData, hok, harr, hv, Part.landingOf]
  have hhalf : ({ s with nextId := s.nextId + 1 } : Part).needsHalf l false = true := by subst hl; exact hneeds
  have hother : ({ s with nextId := s.nextId + 1 } : Part).otherHalf l = none := by simp [Part.otherHalf, hland]
  rw [hacc, Part.land, if_pos hhalf, hother]
  subst hl
  refine ⟨?_, ⟨_, rfl, rfl⟩, fun h => h.congr rfl rfl rfl rfl rfl rfl⟩
  simp [Part.landingOf, Part.useBuf, Part.larderReq, Part.onGh, Part.onLarder, hland]

/-- A whole tile for die memory that needs the other of its pair waits for it (R111, log entry 12). -/
theorem arriveMsg_halfWaits {s : Part} {t : FType} {m : RxMsg} (hcalm : s.Calm) (ht : t ≠ .getreq) (hdst : s.answers m.dst = true)
    (hasm : s.findAsm m.lg.val m.src m.msgid = none) (h : s.LoneHalf t m) : s.HalfWaits (s.arriveMsg t m).settle := by
  obtain ⟨y, hy⟩ : ∃ y, y = ((s.wake .gh).claimAsm m.lg.val m.src m.msgid).2 := ⟨_, rfl⟩
  have hframe : y = { s with pwr := y.pwr, gh := { s.gh with lgs := y.gh.lgs } } := by subst hy; rfl
  have hacc : s.arriveMsg t m = (y.acceptData t m none s.now).creditsFree := by
    rw [Part.arriveMsg, if_pos hdst, Part.takeMsg_fresh (show (s.wake .gh).findAsm _ _ _ = none from hasm), ← hy, Part.acceptMsg_data ht]
    rfl
  generalize y.pwr = pw at hframe
  generalize y.gh.lgs = lgs at hframe
  subst hframe
  obtain ⟨hok, hv, harr, hland, hneeds⟩ := h
  obtain ⟨hwait, hreq, hkeep⟩ := Part.acceptData_halfWaits (s := { s with pwr := pw, gh := { s.gh with lgs := lgs } })
    ⟨hok, hv, harr, hland, (s.needsHalf_lanes pw lgs _ _).trans hneeds⟩ s.now
  rw [hacc]
  exact Part.HalfWaits.settle (.lanesOnly ⟨hwait, hreq, fun hc => hkeep (hc.congr rfl rfl rfl rfl rfl rfl)⟩ (Part.creditsFree_lanesOnly _)) hcalm

end Sys2Proof.Machine
end

section
/-! PROOFS. A response with one tile of a pair, and no export window. -/

namespace Sys2Proof.Machine
open Sys2Proof

/-- A ready part with no export window, Gatehouse port 1 without request credits, and stream 5 rotating by 256 over rows of two tiles. -/
def windowless : Part :=
  { Part.reset 0 with
    pwr := { Pwr.reset with bootStep := 11 }
    nocs := [(9, { NocPort.reset with reqCr := 0 })]
    ssu := { Ssu.reset with streams := [(5, { StreamEntry.reset with rotN := 5, rowT := 1 })] } }

/-- Tile 0 of a pair of stream 5: one row of 128 rotated INT8 codes with its record, to be widened to BF16 at 0x1000, pitch four lines. -/
def rotatedTile : RxMsg :=
  { lg := 1, src := 8, dst := windowless.ownId, msgid := 1
    hdr := BitVec.ofNat 256 (8 + 2 * 2 ^ 5 + 5 * 2 ^ 10 + 136 * 2 ^ 32 + 0x1000 * 2 ^ 64 + 4 * 2 ^ 160)
    body := toBytes 8 (baseRec 0 true false false false).word.toNat ++ List.replicate 128 1 }

theorem windowless_calm : windowless.Calm := by decide

theorem windowless_withheld : ∀ g < 8, ∀ v < 6, (windowless.lg g).withheld.getD v 0 = 0 := by decide

theorem rotatedTile_fresh : windowless.findAsm rotatedTile.lg.val rotatedTile.src rotatedTile.msgid = none := by decide

theorem rotatedTile_hdrOk : hdrOk false rotatedTile.hdr rotatedTile.body = true := by
  have hlen : rotatedTile.body.length = 136 := by simp [rotatedTile, toBytes]
  have hbody : Mh.body rotatedTile.hdr = 136 := by decide
  have hform : hdrForm false rotatedTile.hdr = true := by decide
  simp [hdrOk, hform, hbody, hlen]

theorem rotatedTile_widened : landsNarrow rotatedTile.hdr (msgUnits rotatedTile.hdr rotatedTile.body) = false := by
  have hformats : Mh.lfmt rotatedTile.hdr ≠ Mh.wfmt rotatedTile.hdr := by decide
  simp [landsNarrow, hformats]

theorem rotatedTile_rotated : ((msgUnits rotatedTile.hdr rotatedTile.body).any fun u =>
    u.led.rotated && !mismatch (windowless.inSet .getrsp rotatedTile.hdr).1 (unitIn (windowless.inSet .getrsp rotatedTile.hdr).1 rotatedTile.hdr u).1.led)
      = true := by rfl

/-- As a SEND the tile finds no window and waits for nothing. -/
theorem rotatedTile_send : windowless.needsHalf (windowless.landingOf .send rotatedTile) false = false :=
  Part.needsHalf_refused rfl (by rw [Part.landRefusal_noWindow (by rfl) (by decide) rfl]; rfl)

/-- As a response it needs no window, and the other tile of its pair. -/
theorem rotatedTile_getrsp : windowless.LoneHalf .getrsp rotatedTile where
  hdr := rotatedTile_hdrOk
  noVerdict := by decide
  memory := Part.arrives_noXfers rfl (by decide) _
  noLanding := rfl
  needs := Part.needsHalf_getrsp rfl rfl (Part.arrives_noXfers rfl (by decide) _) rfl (by decide) (by decide) rotatedTile_widened rotatedTile_rotated

end Sys2Proof.Machine

open Sys2Proof Sys2Proof.Machine

/-- Refutes O35. A GETRSP lands without an export window, so that one of two tiles whose blocks run over both waits for the other (log entry
12) where a SEND of the same tile is refused and waits for nothing; the clause of the GETRSP asks only that the SEND does not wait.
`rotatedTile` comes to a part with no window: nothing of it is written. The clause of the halves fails as well (`HalfWaits.not_asked`). -/
theorem not_messagesLand : ¬ Obligations.MessagesLand := by
  unfold Obligations.MessagesLand
  intro h
  obtain ⟨-, -, -, hgetrsp, -⟩ :=
    h rotatedTile { State.reset with part := windowless } windowless_calm fun g hg v hv => .inl (windowless_withheld g hg v hv)
  obtain ⟨t, ht, -, -, -, hlands⟩ :=
    hgetrsp ⟨rfl, rotatedTile_fresh⟩ ⟨⟨rotatedTile_hdrOk, rotatedTile_getrsp.noVerdict, rfl⟩, rotatedTile_send, by decide⟩
  obtain ⟨-, -, ⟨l, hl, -, -, -, hstarted, -⟩, -⟩ := hlands
  obtain ⟨⟨l', hl', -, hidle⟩, -, -⟩ :=
    arriveMsg_halfWaits windowless_calm (by decide : FType.getrsp ≠ .getreq) (by simp [Part.answers, rotatedTile]) rotatedTile_fresh rotatedTile_getrsp
  cases ht
  cases hl.symm.trans hl'
  exact absurd hstarted (by simp [hidle])
end
